-- ==== Sys2Proof/Word.lean ====
section
/-! DEFINITION. The words of the block: bytes of the wire, the 32-bit CTL word and the 64-bit DATA word
(00_scope.md R7, 30_encoding.md R75). -/

namespace Sys2Proof

/-- A byte of the wire or of a scratch buffer. -/
abbrev Byte := BitVec 8

/-- The control word of a request, and the width of a configuration counter. -/
abbrev Word32 := BitVec 32

/-- The data word of a request, and a binary64 pattern. -/
abbrev Word64 := BitVec 64

end Sys2Proof
end

