-- ==== Sys2Proof/Machine/Catalog.lean ====
section
/-! DEFINITION. The register catalog ROM (20_memory.md R51, R52): the constant table SEQ reads to validate device
register addresses. -/

namespace Sys2Proof.Machine

/-- The access column of the catalog; informational, checked by nobody (20_memory.md R53). -/
inductive Access where
  | readOnly
  | readWrite
  | notGiven
  deriving DecidableEq, Repr

/-- One register of the device, as the catalog describes it. -/
structure CatalogEntry where
  name : String
  width : Nat
  access : Access
  deriving DecidableEq, Repr

/-- The 16 entries in address order; `none` is a reserved address (20_memory.md R51). -/
def catalogRom : List (Option CatalogEntry) :=
  [some ⟨"ADCDATA", 24, .readOnly⟩,
   some ⟨"CONFIG0", 8, .readWrite⟩,
   some ⟨"CONFIG1", 8, .readWrite⟩,
   some ⟨"CONFIG2", 8, .readWrite⟩,
   some ⟨"CONFIG3", 8, .readWrite⟩,
   some ⟨"IRQ", 8, .readOnly⟩,
   some ⟨"MUX", 8, .readWrite⟩,
   some ⟨"SCAN", 24, .readWrite⟩,
   some ⟨"TIMER", 24, .readWrite⟩,
   some ⟨"OFFSETCAL", 24, .readWrite⟩,
   some ⟨"GAINCAL", 24, .readWrite⟩,
   none,
   none,
   some ⟨"LOCK", 8, .notGiven⟩,
   none,
   some ⟨"CRCCFG", 16, .notGiven⟩]

/-- The catalog's entry for an address. -/
def catalog (reg : BitVec 4) : Option CatalogEntry :=
  (catalogRom[reg.toNat]?).join

/-- Is the address one of the reserved ones, 0xB, 0xC and 0xE (20_memory.md R52)? -/
def reserved (reg : BitVec 4) : Bool :=
  (catalog reg).isNone

/-- The fitting `RDREG` length of a register, `width/8 + 1` (20_memory.md R51); HOST's to use, never checked. -/
def fittingLength (reg : BitVec 4) : Option Nat :=
  (catalog reg).map fun e => e.width / 8 + 1

end Sys2Proof.Machine
end

