-- ==== Sys2Proof/Config.lean ====
section
/-! DEFINITION. What is fixed for the block (00_scope.md R6) and what is left free: the open parameter
CS_ACTIVE_LEVEL and the draws of the environment. -/

namespace Sys2Proof

/-- Who takes a step (00_scope.md R5; `rst` is the environment's reset, 70_reset_and_hazards.md R250). -/
inductive Agent where
  | host
  | seq
  | tp
  | rst
  deriving DecidableEq, Repr, Inhabited

/-- The transport's answer to a submission (41_sequencer.md R123). -/
inductive Answer where
  | accepted
  | busy
  | fail
  deriving DecidableEq, Repr, Inhabited

/-- The answers left to the transport where it cannot accept (41_sequencer.md R124). -/
inductive Denial where
  | busy
  | fail
  deriving DecidableEq, Repr, Inhabited

/-- The kind of the transaction in flight, `T_KIND` (10_state.md R20). -/
inductive TransferKind where
  | read
  | write
  | fast
  deriving DecidableEq, Repr, Inhabited

/-- A scratch buffer of five wire slots (10_state.md R28): slot 0 is the command byte. -/
structure Buffer where
  s0 : Byte
  s1 : Byte
  s2 : Byte
  s3 : Byte
  s4 : Byte
  deriving DecidableEq, Repr, Inhabited

/-- The bytes the device would return in one capture, slots 1 to 4 (41_sequencer.md R125). -/
structure Capture where
  c1 : Byte
  c2 : Byte
  c3 : Byte
  c4 : Byte
  deriving DecidableEq, Repr, Inhabited

/-- The free values of one step. Nothing constrains any of them; a step uses the ones its rule draws.
`agent` is who moves (41_sequencer.md R127), `answer` and `denial` what TP says to a submission (R124),
`capture` what the device returns (R125), and the last four what reset leaves in the elements whose value
it does not specify (70_reset_and_hazards.md R250). -/
structure Draw where
  agent : Agent
  answer : Answer
  denial : Denial
  capture : Capture
  resetKind : TransferKind
  resetLen : BitVec 3
  resetTx : Buffer
  resetRx : Buffer
  deriving DecidableEq, Repr, Inhabited

/-- An electrical level of a pin. -/
inductive Level where
  | low
  | high
  deriving DecidableEq, Repr, Inhabited

/-- CS_ACTIVE_LEVEL, the level of an asserted chip-select: OPEN (00_scope.md R6, 93 U19; log 17). -/
opaque Config.csActiveLevel : Level

/-- The free values of the n-th step: no body, so no proof knows any of them (logs 2, 4, 5, 8). -/
opaque Config.draws : Nat → Draw

/-- DEVICE_ADDRESS, the device field of every frame (00_scope.md R6). -/
def Config.deviceAddress : BitVec 2 := 0b01#2

/-- FILL_BYTE, sent while capturing (00_scope.md R6). -/
def Config.fillByte : Byte := 0x00#8

/-- The longest capture and the longest payload, in bytes (00_scope.md R6). -/
def Config.maxLength : Nat := 4

/-- MAX_DIGITS of the display split (00_scope.md R6). -/
def Config.maxDigits : Nat := 9

/-- FULL_SCALE after reset, the binary64 nearest to 3.3 (00_scope.md R6). -/
def Config.fullScaleReset : Word64 := 0x400A666666666666#64

/-- RESOLUTION after reset, 2^23 (00_scope.md R6). -/
def Config.resolutionReset : Word32 := 0x00800000#32

/-- POLL_LIMIT after reset: unbounded waits (00_scope.md R6). -/
def Config.pollLimitReset : Word32 := 0x00000000#32

end Sys2Proof
end

