-- ==== Sys2Proof/Syntax.lean ====
section
/-! DEFINITION. The requests of the request port and the command bytes of the wire, as data: one constructor of
`Instr` per row of spec/opcode_table.json. -/

namespace Sys2Proof

/-- The fast commands, in the order of the selector SEL (30_encoding.md R72, R80). -/
inductive FastCommand where
  | conversion
  | standby
  | shutdown
  | fullReset
  deriving DecidableEq, Repr

/-- One request as presented on the request port (30_encoding.md R75). -/
structure Request where
  ctl : Word32
  data : Word64
  deriving DecidableEq, Repr

/-- What a step can find to execute: a request of HOST, or the command byte SEQ is about to send. -/
inductive Fetched where
  | request (r : Request)
  | wire (b : Byte)
  deriving DecidableEq, Repr

/-- The operations of the block. The first sixteen are requests (30_encoding.md R77); the last six are the
command bytes of the wire (30_encoding.md R70, R72), which SEQ executes by sending them at START. -/
inductive Instr where
  /-- `ENCF dev, reg, op` (40_codec.md R100). -/
  | encf (reg : BitVec 4) (dev : BitVec 2) (op : BitVec 2)
  /-- `DECF byte` (40_codec.md R105). -/
  | decf (byte : Byte)
  /-- `RDREG reg, len` (41_sequencer.md R150). -/
  | rdreg (reg : BitVec 4) (len : BitVec 4)
  /-- `WRREG reg, n, value` (41_sequencer.md R155). -/
  | wrreg (reg : BitVec 4) (len : BitVec 4) (value : Word32)
  /-- `FAST cmd` (41_sequencer.md R160). -/
  | fast (cmd : FastCommand)
  /-- `DEC24 b1, b2, b3` (42_converter.md R170). -/
  | dec24 (b1 : Byte) (b2 : Byte) (b3 : Byte)
  /-- `TOVOLT code` (42_converter.md R175). -/
  | tovolt (code : Word32)
  /-- `DSPLIT v, digits` (42_converter.md R180). -/
  | dsplit (voltage : Word64) (digits : BitVec 4)
  /-- `SETCFG idx, value` (43_config.md R200). -/
  | setcfg (idx : BitVec 4) (value : Word64)
  /-- `GETCFG idx` (43_config.md R205). -/
  | getcfg (idx : BitVec 4)
  /-- OPC 0x0 (43_config.md R210). -/
  | unassigned0
  /-- OPC 0xB (43_config.md R210). -/
  | unassignedB
  /-- OPC 0xC (43_config.md R210). -/
  | unassignedC
  /-- OPC 0xD (43_config.md R210). -/
  | unassignedD
  /-- OPC 0xE (43_config.md R210). -/
  | unassignedE
  /-- OPC 0xF (43_config.md R210). -/
  | unassignedF
  /-- The command byte of a read (30_encoding.md R70). -/
  | readFrame (reg : BitVec 4)
  /-- The command byte of a write (30_encoding.md R70). -/
  | writeFrame (reg : BitVec 4)
  /-- The byte 0x68 (30_encoding.md R72). -/
  | fastConversion
  /-- The byte 0x6C (30_encoding.md R72). -/
  | fastStandby
  /-- The byte 0x70 (30_encoding.md R72). -/
  | fastShutdown
  /-- The byte 0x78 (30_encoding.md R72). -/
  | fastFullReset
  deriving DecidableEq, Repr

end Sys2Proof
end

