-- ==== Sys2Proof/WellFormed.lean ====
section
/-! DEFINITION. The well-formed instructions: every operand a request does not use is 0 (30_encoding.md R82: "Every
field not named is 0"), and a command byte names a register SEQ may address (30_encoding.md R73). -/

namespace Sys2Proof

/-- The check. A request with an operand value that its rule refuses with an error status is well formed: the
error is its meaning. -/
def Instr.wellFormed : Instr → Bool
  | .encf _ _ _ => true
  | .decf _ => true
  | .rdreg _ _ => true
  | .wrreg _ len value =>
    if 1 ≤ len.toNat ∧ len.toNat ≤ Config.maxLength then decide (value.toNat < 2 ^ (8 * len.toNat))
    else decide (value = 0#32)
  | .fast _ => true
  | .dec24 _ _ _ => true
  | .tovolt _ => true
  | .dsplit _ _ => true
  | .setcfg idx value =>
    if idx = 0#4 then true
    else if idx = 1#4 ∨ idx = 2#4 then decide (value.toNat < 2 ^ 32)
    else decide (value = 0#64)
  | .getcfg _ => true
  | .unassigned0 => true
  | .unassignedB => true
  | .unassignedC => true
  | .unassignedD => true
  | .unassignedE => true
  | .unassignedF => true
  | .readFrame reg => !Machine.reserved reg
  | .writeFrame reg => !Machine.reserved reg
  | .fastConversion => true
  | .fastStandby => true
  | .fastShutdown => true
  | .fastFullReset => true

/-- The instruction is well formed. -/
abbrev WellFormed (i : Instr) : Prop := i.wellFormed = true

end Sys2Proof
end

