-- ==== Sys2Proof/Decode.lean ====
section
/-! DEFINITION. The two encodings of the block and their decoder and encoder: the command byte of the wire
(30_encoding.md R70–R74) and the request port (R75–R82). -/

namespace Sys2Proof

/-- The command frame `(dev << 6) | (reg << 2) | op` (40_codec.md R101). -/
def frame (dev : BitVec 2) (reg : BitVec 4) (op : BitVec 2) : Byte :=
  (dev.setWidth 8 <<< 6) ||| (reg.setWidth 8 <<< 2) ||| op.setWidth 8

/-- The operation field of a read frame (30_encoding.md R70). -/
def opRead : BitVec 2 := 0b01#2

/-- The operation field of a write frame (30_encoding.md R70). -/
def opWrite : BitVec 2 := 0b10#2

/-- `DEV`, bits 7:6 of a command byte. -/
def frameDev (b : Byte) : BitVec 2 := b.extractLsb' 6 2

/-- `REG`, bits 5:2 of a command byte. -/
def frameReg (b : Byte) : BitVec 4 := b.extractLsb' 2 4

/-- `OP`, bits 1:0 of a command byte. -/
def frameOp (b : Byte) : BitVec 2 := b.extractLsb' 0 2

/-- The byte of a fast command (30_encoding.md R72). -/
def fastByte : FastCommand → Byte
  | .conversion => 0x68#8
  | .standby => 0x6C#8
  | .shutdown => 0x70#8
  | .fullReset => 0x78#8

/-- The fast command a selector names (30_encoding.md R80). -/
def fastOfSel (sel : BitVec 2) : FastCommand :=
  if sel = 0b00#2 then .conversion
  else if sel = 0b01#2 then .standby
  else if sel = 0b10#2 then .shutdown
  else .fullReset

/-- The selector of a fast command (30_encoding.md R80). -/
def selOfFast : FastCommand → BitVec 2
  | .conversion => 0b00#2
  | .standby => 0b01#2
  | .shutdown => 0b10#2
  | .fullReset => 0b11#2

/-! ### The fields of CTL (30_encoding.md R75) -/

/-- `CTL[31:28]`. -/
def ctlOpc (c : Word32) : BitVec 4 := c.extractLsb' 28 4

/-- `CTL[27:24]`. -/
def ctlReg (c : Word32) : BitVec 4 := c.extractLsb' 24 4

/-- `CTL[23:22]`. -/
def ctlDev (c : Word32) : BitVec 2 := c.extractLsb' 22 2

/-- `CTL[21:20]`. -/
def ctlOp (c : Word32) : BitVec 2 := c.extractLsb' 20 2

/-- `CTL[19:16]`. -/
def ctlLen (c : Word32) : BitVec 4 := c.extractLsb' 16 4

/-- `CTL[15:14]`. -/
def ctlSel (c : Word32) : BitVec 2 := c.extractLsb' 14 2

/-- A CTL word of the given fields, its reserved bits 13:0 zero (30_encoding.md R75). -/
def ctlWord (opc reg : BitVec 4) (dev op : BitVec 2) (len : BitVec 4) (sel : BitVec 2) : Word32 :=
  opc ++ reg ++ dev ++ op ++ len ++ sel ++ 0#14

/-- The payload of `WRREG`: `DATA[8n-1:0]` for a length `n` from 1 to 4; no bit is used for another length
(30_encoding.md R76, R79). -/
def writePayload (len : BitVec 4) (data : Word64) : Word32 :=
  if 1 ≤ len.toNat ∧ len.toNat ≤ Config.maxLength then BitVec.ofNat 32 (data.toNat % 2 ^ (8 * len.toNat))
  else 0#32

/-- The value of `SETCFG`: 64 bits for index 0, 32 bits for indices 1 and 2; no bit is used for another index
(30_encoding.md R76, R79). -/
def configOperand (idx : BitVec 4) (data : Word64) : Word64 :=
  if idx = 0#4 then data
  else if idx = 1#4 ∨ idx = 2#4 then (data.setWidth 32).setWidth 64
  else 0#64

/-- Why a command byte is none of the wire's (30_encoding.md R71, R73, R74). No request is ever rejected: every
value of OPC is a row of the table. -/
inductive DecodeError where
  /-- `DEV ≠ 0b01`. -/
  | invalidDevice
  /-- `OP = 0b11`, to which the source gives no meaning. -/
  | noSuchOperation
  /-- `OP = 0b00` and not one of the four fast commands. -/
  | noSuchFastCommand
  deriving DecidableEq, Repr

/-- The instruction of a request (30_encoding.md R75–R77, R79, R80). -/
def decodeRequest (r : Request) : Instr :=
  match (ctlOpc r.ctl).toNat with
  | 0 => .unassigned0
  | 1 => .encf (ctlReg r.ctl) (ctlDev r.ctl) (ctlOp r.ctl)
  | 2 => .decf (r.data.extractLsb' 0 8)
  | 3 => .rdreg (ctlReg r.ctl) (ctlLen r.ctl)
  | 4 => .wrreg (ctlReg r.ctl) (ctlLen r.ctl) (writePayload (ctlLen r.ctl) r.data)
  | 5 => .fast (fastOfSel (ctlSel r.ctl))
  | 6 => .dec24 (r.data.extractLsb' 16 8) (r.data.extractLsb' 8 8) (r.data.extractLsb' 0 8)
  | 7 => .tovolt (r.data.extractLsb' 0 32)
  | 8 => .dsplit r.data (ctlLen r.ctl)
  | 9 => .setcfg (ctlReg r.ctl) (configOperand (ctlReg r.ctl) r.data)
  | 10 => .getcfg (ctlReg r.ctl)
  | 11 => .unassignedB
  | 12 => .unassignedC
  | 13 => .unassignedD
  | 14 => .unassignedE
  | _ => .unassignedF

/-- The instruction of a command byte (30_encoding.md R70–R72). A reserved register decodes, as it does in the
codec (R74); SEQ never sends one (R73; log 14). -/
def decodeWire (b : Byte) : Except DecodeError Instr :=
  if frameDev b ≠ Config.deviceAddress then .error .invalidDevice
  else if frameOp b = opRead then .ok (.readFrame (frameReg b))
  else if frameOp b = opWrite then .ok (.writeFrame (frameReg b))
  else if b = 0x68#8 then .ok .fastConversion
  else if b = 0x6C#8 then .ok .fastStandby
  else if b = 0x70#8 then .ok .fastShutdown
  else if b = 0x78#8 then .ok .fastFullReset
  else if frameOp b = 0b00#2 then .error .noSuchFastCommand
  else .error .noSuchOperation

/-- Decoding, total on every request and every byte. -/
def decode : Fetched → Except DecodeError Instr
  | .request r => .ok (decodeRequest r)
  | .wire b => decodeWire b

/-- The words of an instruction, every unused field 0 (30_encoding.md R70, R72, R82). -/
def encode : Instr → Fetched
  | .encf reg dev op => .request ⟨ctlWord 1 reg dev op 0 0, 0⟩
  | .decf byte => .request ⟨ctlWord 2 0 0 0 0 0, byte.setWidth 64⟩
  | .rdreg reg len => .request ⟨ctlWord 3 reg 0 0 len 0, 0⟩
  | .wrreg reg len value => .request ⟨ctlWord 4 reg 0 0 len 0, value.setWidth 64⟩
  | .fast cmd => .request ⟨ctlWord 5 0 0 0 0 (selOfFast cmd), 0⟩
  | .dec24 b1 b2 b3 => .request ⟨ctlWord 6 0 0 0 0 0, 0#40 ++ b1 ++ b2 ++ b3⟩
  | .tovolt code => .request ⟨ctlWord 7 0 0 0 0 0, code.setWidth 64⟩
  | .dsplit voltage digits => .request ⟨ctlWord 8 0 0 0 digits 0, voltage⟩
  | .setcfg idx value => .request ⟨ctlWord 9 idx 0 0 0 0, value⟩
  | .getcfg idx => .request ⟨ctlWord 10 idx 0 0 0 0, 0⟩
  | .unassigned0 => .request ⟨ctlWord 0 0 0 0 0 0, 0⟩
  | .unassignedB => .request ⟨ctlWord 11 0 0 0 0 0, 0⟩
  | .unassignedC => .request ⟨ctlWord 12 0 0 0 0 0, 0⟩
  | .unassignedD => .request ⟨ctlWord 13 0 0 0 0 0, 0⟩
  | .unassignedE => .request ⟨ctlWord 14 0 0 0 0 0, 0⟩
  | .unassignedF => .request ⟨ctlWord 15 0 0 0 0 0, 0⟩
  | .readFrame reg => .wire (frame Config.deviceAddress reg opRead)
  | .writeFrame reg => .wire (frame Config.deviceAddress reg opWrite)
  | .fastConversion => .wire 0x68#8
  | .fastStandby => .wire 0x6C#8
  | .fastShutdown => .wire 0x70#8
  | .fastFullReset => .wire 0x78#8

/-! ### The opcode table (spec/opcode_table.json) -/

/-- A row's width in bits, its mask and its pattern. -/
structure TableRow where
  nbits : Nat
  mask : Nat
  pattern : Nat
  deriving DecidableEq, Repr

/-- The row of the table that an instruction belongs to. -/
def tableRow : Instr → TableRow
  | .encf _ _ _ => ⟨32, 0xF0000000, 0x10000000⟩
  | .decf _ => ⟨32, 0xF0000000, 0x20000000⟩
  | .rdreg _ _ => ⟨32, 0xF0000000, 0x30000000⟩
  | .wrreg _ _ _ => ⟨32, 0xF0000000, 0x40000000⟩
  | .fast _ => ⟨32, 0xF0000000, 0x50000000⟩
  | .dec24 _ _ _ => ⟨32, 0xF0000000, 0x60000000⟩
  | .tovolt _ => ⟨32, 0xF0000000, 0x70000000⟩
  | .dsplit _ _ => ⟨32, 0xF0000000, 0x80000000⟩
  | .setcfg _ _ => ⟨32, 0xF0000000, 0x90000000⟩
  | .getcfg _ => ⟨32, 0xF0000000, 0xA0000000⟩
  | .unassigned0 => ⟨32, 0xF0000000, 0x00000000⟩
  | .unassignedB => ⟨32, 0xF0000000, 0xB0000000⟩
  | .unassignedC => ⟨32, 0xF0000000, 0xC0000000⟩
  | .unassignedD => ⟨32, 0xF0000000, 0xD0000000⟩
  | .unassignedE => ⟨32, 0xF0000000, 0xE0000000⟩
  | .unassignedF => ⟨32, 0xF0000000, 0xF0000000⟩
  | .readFrame _ => ⟨8, 0xC3, 0x41⟩
  | .writeFrame _ => ⟨8, 0xC3, 0x42⟩
  | .fastConversion => ⟨8, 0xFF, 0x68⟩
  | .fastStandby => ⟨8, 0xFF, 0x6C⟩
  | .fastShutdown => ⟨8, 0xFF, 0x70⟩
  | .fastFullReset => ⟨8, 0xFF, 0x78⟩

/-- The bits the table numbers in what was fetched: the CTL word of a request, or the command byte. -/
def tableBits : Fetched → Nat
  | .request r => r.ctl.toNat
  | .wire b => b.toNat

/-- The width the table gives what was fetched: 32 for a request, 8 for a command byte. -/
def tableWidth : Fetched → Nat
  | .request _ => 32
  | .wire _ => 8

/-- What lies on the port, or on the wire, when an instruction's bits are `w`: a command byte for 8 bits, else a
request whose CTL word is the first word and whose DATA word follows it (log 24). -/
def fetchedOfBits (nbits w : Nat) : Fetched :=
  if nbits = 8 then .wire (BitVec.ofNat 8 w)
  else .request ⟨BitVec.ofNat 32 w, BitVec.ofNat 64 (w / 2 ^ 32)⟩

/-- The instruction that this decoder reads from an instruction whose bits are `w`. -/
def decodeTableWord (nbits w : Nat) : Option Instr :=
  match decode (fetchedOfBits nbits w) with
  | .ok i => some i
  | .error _ => none

end Sys2Proof
end

