-- ==== Sys2Proof/Machine/State.lean ====
section
/-! DEFINITION. The state of the block (10_state.md R20), of the transport it is connected to (10_state.md R30,
41_sequencer.md R124) and of its host's request port, the reasons a step can stop, and the state after reset. -/

namespace Sys2Proof.Machine

/-- The phase of SEQ, `PH` (10_state.md R22). -/
inductive Phase where
  | idle
  | start
  | wtx1
  | p2
  | wtx2
  | final
  deriving DecidableEq, Repr

/-- The ten status codes that are ever produced (60_exceptions.md R220, 93 U18; log 11). -/
inductive Status where
  | ok
  | invalidDeviceAddress
  | invalidRegisterAddress
  | invalidOperationType
  | invalidLength
  | transportSubmitFailure
  | transportBusy
  | transportTimeout
  | decodeOutOfRange
  | unknownRequest
  deriving DecidableEq, Repr

/-- The kind of a submission: `write` or `writeRead` (41_sequencer.md R123). -/
inductive SubmitKind where
  | wr
  | wrrd
  deriving DecidableEq, Repr

/-- A submission, as TP records it in `TP_CUR` (41_sequencer.md R124). -/
structure Submission where
  kind : SubmitKind
  bytes : List Byte
  deriving DecidableEq, Repr

/-- One event of the observable trace (41_sequencer.md R129). -/
inductive Event where
  | csUp
  | csDown
  | sub (kind : SubmitKind) (bytes : List Byte) (answer : Answer)
  | cap (bytes : List Byte)
  | resp (status : Status) (data : Word64) (aux : Byte)
  deriving DecidableEq, Repr

/-- The machine. The first fifteen fields are the block (10_state.md R20); `tpBusy` to `notify` are the transport
and its wiring (10_state.md R30, 41_sequencer.md R124, 70_reset_and_hazards.md R255); `requests` is what HOST has
still to issue; `draw` and `tick` are the model's free values; `trace` is the observation of 41_sequencer.md R129,
which no rule reads. -/
structure State where
  ph : Phase
  cs : Bool
  done : Bool
  pollCnt : Word32
  tKind : TransferKind
  tLen : BitVec 3
  tx : Buffer
  rx : Buffer
  cfgFullScale : Word64
  cfgResolution : Word32
  cfgPollLimit : Word32
  respValid : Bool
  respStatus : Status
  respData : Word64
  respAux : Byte
  tpBusy : Bool
  tpTxBusy : Bool
  tpCur : Option Submission
  notify : Bool
  requests : List Request
  draw : Draw
  tick : Nat
  trace : List Event
  deriving DecidableEq, Repr

/-- The block has no faults (93_implementation_defined.md: "The block has no faults"; 60_exceptions.md R225):
nothing raises one. Every error is a next state. -/
inductive Fault where
  deriving DecidableEq, Repr

/-- Why `exec` gives an operation no step. `step` never answers one of them. -/
inductive Refusal where
  /-- An arm of `exec` that has no meaning yet; no arm raises it. Safe. -/
  | notModelled (mnemonic : String)
  /-- `exec` of a request at `PH ≠ IDLE`, where HOST has no step (41_sequencer.md R121, 93 U21). Raised by the
  sixteen requests. Safe: the step lets such a host wait instead. -/
  | hostNotReady
  /-- `exec` of a command byte that SEQ is not about to send: `PH ≠ START`, or another byte in `TX[0]`
  (41_sequencer.md R131; log 12). Raised by the six command bytes. Safe: the step fetches only the byte in `TX[0]`,
  at START. -/
  | byteNotDue
  deriving DecidableEq, Repr

/-- Five bytes 0x00. -/
def zeroBuffer : Buffer := ⟨0#8, 0#8, 0#8, 0#8, 0#8⟩

/-- The machine right after power-on reset (70_reset_and_hazards.md R250). `tKind`, `tLen`, `tx` and `rx` are
unspecified there and hold named values (DESIGN CHOICE, log 7); TP is idle (log 9), its notification connected
(log 10), HOST has no request (log 6), and the first draw is free (log 21). -/
def State.reset : State where
  ph := .idle
  cs := false
  done := false
  pollCnt := 0#32
  tKind := .read
  tLen := 1#3
  tx := zeroBuffer
  rx := zeroBuffer
  cfgFullScale := Config.fullScaleReset
  cfgResolution := Config.resolutionReset
  cfgPollLimit := Config.pollLimitReset
  respValid := false
  respStatus := .ok
  respData := 0#64
  respAux := 0#8
  tpBusy := false
  tpTxBusy := false
  tpCur := none
  notify := true
  requests := []
  draw := Config.draws 0
  tick := 1
  trace := []

end Sys2Proof.Machine
end

