-- ==== Sys2Proof/Machine/Flags.lean ====
section
/-! DEFINITION. The response registers and the status codes, the block's only condition code (10_state.md R26,
60_exceptions.md R220), and the observation of events. -/

namespace Sys2Proof.Machine

/-- The four-bit code HOST reads in `RESP_STATUS` (60_exceptions.md R220). -/
def Status.code : Status → BitVec 4
  | .ok => 0x0#4
  | .invalidDeviceAddress => 0x1#4
  | .invalidRegisterAddress => 0x2#4
  | .invalidOperationType => 0x3#4
  | .invalidLength => 0x4#4
  | .transportSubmitFailure => 0x5#4
  | .transportBusy => 0x6#4
  | .transportTimeout => 0x7#4
  | .decodeOutOfRange => 0x8#4
  | .unknownRequest => 0x9#4

/-- `READY`, 1 exactly when `PH = IDLE` (10_state.md R23). -/
def State.ready (s : State) : Bool := decide (s.ph = .idle)

/-- Append one event to the observable trace (41_sequencer.md R129). -/
def State.emit (e : Event) (s : State) : State :=
  { s with trace := s.trace ++ [e] }

/-- `finish(status, data, aux)`: end the current request (00_scope.md R8). -/
def State.finish (status : Status) (data : Word64) (aux : Byte) (s : State) : State :=
  State.emit (.resp status data aux)
    { s with respStatus := status, respData := data, respAux := aux, respValid := true, ph := .idle }

end Sys2Proof.Machine
end

