-- ==== Sys2Proof/Machine/Operands.lean ====
section
/-! DEFINITION. How the operands of a transaction stand in the scratch buffers and how a capture becomes a value
(10_state.md R28, 30_encoding.md R80, 41_sequencer.md R134, R135, R139). -/

namespace Sys2Proof.Machine

/-- Write bytes into the slots from slot 0 on; the slots past the last byte keep their values. -/
def writeSlots (b : Buffer) (bytes : List Byte) : Buffer where
  s0 := (bytes[0]?).getD b.s0
  s1 := (bytes[1]?).getD b.s1
  s2 := (bytes[2]?).getD b.s2
  s3 := (bytes[3]?).getD b.s3
  s4 := (bytes[4]?).getD b.s4

/-- Slots 1 to `n`: the bytes of phase 2 (41_sequencer.md R134, R135). The buffer ends at slot 4, whatever `n`
(log 18). -/
def phase2Bytes (b : Buffer) (n : BitVec 3) : List Byte :=
  [b.s1, b.s2, b.s3, b.s4].take n.toNat

/-- The bytes of a capture of `n` bytes. -/
def capturedBytes (c : Capture) (n : Nat) : List Byte :=
  [c.c1, c.c2, c.c3, c.c4].take n

/-- `RX[1..]` takes the captured bytes; `RX[0]` and the slots past the last are not written (41_sequencer.md
R125). -/
def storeCapture (b : Buffer) (bytes : List Byte) : Buffer :=
  writeSlots b (b.s0 :: bytes)

/-- `Value()`: the captured bytes after the dummy-clock byte, most significant first (41_sequencer.md R139,
20_memory.md R55). -/
def readValue (b : Buffer) (n : BitVec 3) : BitVec 24 :=
  ([b.s2, b.s3, b.s4].take (n.toNat - 1)).foldl (fun v x => (v <<< 8) ||| x.setWidth 24) 0#24

/-- The `n` payload bytes of a write in wire order: byte `i` is `DATA[8*(n-i)-1 : 8*(n-i-1)]` (30_encoding.md
R80). -/
def payloadBytes (n : Nat) (value : Word32) : List Byte :=
  (List.range n).map fun i => value.extractLsb' (8 * (n - i - 1)) 8

/-- Is a length one that `RDREG` and `WRREG` accept, 1 to 4 (41_sequencer.md R150, R155)? -/
def legalLength (len : BitVec 4) : Bool :=
  decide (1 ≤ len.toNat) && decide (len.toNat ≤ Config.maxLength)

end Sys2Proof.Machine
end

