-- ==== Sys2Proof/Machine/Ops.lean ====
section
/-! DEFINITION. The named operations over the state: chip-select, error entry, accepting a transaction, the call to
the transport, the waits, and the moves of TP and of reset. -/

namespace Sys2Proof.Machine

/-- The events of writing `CS`: a change is one, a write of the same value none (41_sequencer.md R129). -/
def csEvents : Bool → Bool → List Event
  | false, false => []
  | false, true => [.csUp]
  | true, false => [.csDown]
  | true, true => []

/-- Write `CS` (10_state.md R24). -/
def State.setCs (b : Bool) (s : State) : State :=
  { s with cs := b, trace := s.trace ++ csEvents s.cs b }

/-- The electrical level of the chip-select pin, which no rule reads (10_state.md R24, 93 U19). -/
def State.csLevel (s : State) : Level :=
  if s.cs then Config.csActiveLevel
  else match Config.csActiveLevel with
    | .low => .high
    | .high => .low

/-- Error entry, the block's only form of exception (60_exceptions.md R225, 00_scope.md R8 `raise`): release
chip-select if the transaction in flight had asserted it, and finish with the error's code and zeros. At IDLE no
transaction is in flight and `CS` is untouched (41_sequencer.md R121). Nothing is saved and there is no return
(R226). -/
def State.takeError (e : Status) (s : State) : State :=
  State.finish e 0#64 0#8 (State.setCs (if s.ph = .idle then s.cs else false) s)

/-- HOST's step for one request: it exists exactly when `PH = IDLE` (41_sequencer.md R121; log 12). -/
def State.issue (s t : State) : Host.Outcome State Fault Refusal :=
  if s.ph = .idle then .next t else .refused .hostNotReady

/-- Accept a transaction: latch its kind, length and bytes, assert `CS`, go to START (41_sequencer.md R121). -/
def State.acceptTransaction (kind : TransferKind) (len : BitVec 3) (bytes : List Byte) (s : State) : State :=
  State.setCs true
    { s with tKind := kind, tLen := len, tx := writeSlots s.tx bytes, respValid := false, ph := .start }

/-- TP's answer to a submission: a draw, under the one constraint that `ACCEPTED` needs `TP_TXBUSY = 0`
(41_sequencer.md R124; log 4). -/
def State.tpAnswer (s : State) : Answer :=
  match s.draw.answer with
  | .busy => .busy
  | .fail => .fail
  | .accepted =>
    if s.tpTxBusy then (match s.draw.denial with | .busy => .busy | .fail => .fail) else .accepted

/-- What a submission with the given answer does to TP and to the trace (41_sequencer.md R124, R129). -/
def State.submit (kind : SubmitKind) (bytes : List Byte) (answer : Answer) (s : State) : State :=
  State.emit (.sub kind bytes answer)
    { s with
      tpBusy := if answer = .accepted then true else s.tpBusy
      tpTxBusy := if answer = .accepted then true else s.tpTxBusy
      tpCur := if answer = .accepted then some ⟨kind, bytes⟩ else s.tpCur }

/-- One phase's submission: clear `DONE`, submit, and go on to `next` if accepted, else end the transaction with the
answer's error; never a retry (41_sequencer.md R131, R132, R136). -/
def State.submitPhase (kind : SubmitKind) (bytes : List Byte) (next : Phase) (s : State) : State :=
  match s.tpAnswer with
  | .accepted => { State.submit kind bytes .accepted { s with done := false } with pollCnt := 0#32, ph := next }
  | .busy => State.takeError .transportBusy (State.submit kind bytes .busy { s with done := false })
  | .fail => State.takeError .transportSubmitFailure (State.submit kind bytes .fail { s with done := false })

/-- A wait whose condition is false: hold in unbounded mode, else count a poll and time out at the limit
(41_sequencer.md R142, R143). The count is compared as a number (log 20). -/
def State.pollOrHold (s : State) : State :=
  if s.cfgPollLimit = 0#32 then s
  else if s.cfgPollLimit.toNat ≤ s.pollCnt.toNat + 1 then
    State.takeError .transportTimeout { s with pollCnt := s.pollCnt + 1#32 }
  else { s with pollCnt := s.pollCnt + 1#32 }

/-- TP's completion step (41_sequencer.md R125). The notification reaches `DONE` if it is connected
(70_reset_and_hazards.md R255; log 10). -/
def State.tpComplete (s : State) : State :=
  match s.tpCur with
  | some ⟨.wrrd, bytes⟩ =>
    State.emit (.cap (capturedBytes s.draw.capture bytes.length))
      { s with
        tpBusy := false
        done := s.done || s.notify
        rx := storeCapture s.rx (capturedBytes s.draw.capture bytes.length) }
  | _ => { s with tpBusy := false, done := s.done || s.notify }

/-- TP's turn: the transmitter-idle step (41_sequencer.md R126) or the completion step (R125), whichever is
enabled; else nothing. -/
def State.tpMove (s : State) : State :=
  if s.tpTxBusy then { s with tpTxBusy := false }
  else if s.tpBusy then s.tpComplete
  else s

/-- A reset of the block by `RST` (70_reset_and_hazards.md R250, R251). TP keeps its state; the elements whose value
is unspecified take free values (log 8). -/
def State.rstMove (s : State) : State :=
  State.setCs false
    { s with
      ph := .idle
      done := false
      pollCnt := 0#32
      cfgFullScale := Config.fullScaleReset
      cfgResolution := Config.resolutionReset
      cfgPollLimit := Config.pollLimitReset
      respValid := false
      respStatus := .ok
      respData := 0#64
      respAux := 0#8
      tKind := s.draw.resetKind
      tLen := s.draw.resetLen
      tx := s.draw.resetTx
      rx := s.draw.resetRx }

end Sys2Proof.Machine
end

