-- ==== Sys2Proof/Machine/Sequencer.lean ====
section
/-! DEFINITION. The transfer sequencer SEQ: the issue steps of `RDREG`, `WRREG` and `FAST`, the six command bytes it
sends, and the phases of every transaction (41_sequencer.md). -/

namespace Sys2Proof.Machine

/-- The validation of `RDREG` and `WRREG`, the register first (41_sequencer.md R150, R155). -/
def transferError (reg len : BitVec 4) : Option Status :=
  if reserved reg then some .invalidRegisterAddress
  else if legalLength len then none
  else some .invalidLength

/-- Refuse a transfer that fails its validation, else accept it (41_sequencer.md R121). -/
def State.issueTransfer (kind : TransferKind) (reg len : BitVec 4) (bytes : List Byte) (s : State) : State :=
  match transferError reg len with
  | some e => State.takeError e s
  | none => State.acceptTransaction kind (len.setWidth 3) bytes s

/-- `RDREG reg, len`: the issue step (41_sequencer.md R150). -/
def execRdreg (reg len : BitVec 4) (s : State) : Host.Outcome State Fault Refusal :=
  s.issue (s.issueTransfer .read reg len
    (frame Config.deviceAddress reg opRead :: List.replicate len.toNat Config.fillByte))

/-- `WRREG reg, n, value`: the issue step (41_sequencer.md R155). -/
def execWrreg (reg len : BitVec 4) (value : Word32) (s : State) : Host.Outcome State Fault Refusal :=
  s.issue (s.issueTransfer .write reg len
    (frame Config.deviceAddress reg opWrite :: payloadBytes len.toNat value))

/-- `FAST cmd`: the issue step, which refuses nothing (41_sequencer.md R160). -/
def execFast (cmd : FastCommand) (s : State) : Host.Outcome State Fault Refusal :=
  s.issue (s.acceptTransaction .fast 1#3 [fastByte cmd])

/-- Phase START: send the command byte `TX[0]`, alone, as its own submission (41_sequencer.md R131). -/
def State.seqStart (s : State) : State :=
  State.submitPhase .wr [s.tx.s0] (if s.tKind = .fast then .final else .wtx1) s

/-- SEQ's execution of a command byte: the START step that submits it (log 13). -/
def State.sendCommand (b : Byte) (s : State) : Host.Outcome State Fault Refusal :=
  if s.ph = .start ∧ s.tx.s0 = b then .next s.seqStart else .refused .byteNotDue

/-- The command byte of a read (41_sequencer.md R131, R150). -/
def execReadFrame (reg : BitVec 4) (s : State) : Host.Outcome State Fault Refusal :=
  s.sendCommand (frame Config.deviceAddress reg opRead)

/-- The command byte of a write (41_sequencer.md R131, R155). -/
def execWriteFrame (reg : BitVec 4) (s : State) : Host.Outcome State Fault Refusal :=
  s.sendCommand (frame Config.deviceAddress reg opWrite)

/-- The byte 0x68 (41_sequencer.md R131, R160). -/
def execFastConversion (s : State) : Host.Outcome State Fault Refusal :=
  s.sendCommand (fastByte .conversion)

/-- The byte 0x6C (41_sequencer.md R131, R160). -/
def execFastStandby (s : State) : Host.Outcome State Fault Refusal :=
  s.sendCommand (fastByte .standby)

/-- The byte 0x70 (41_sequencer.md R131, R160). -/
def execFastShutdown (s : State) : Host.Outcome State Fault Refusal :=
  s.sendCommand (fastByte .shutdown)

/-- The byte 0x78 (41_sequencer.md R131, R160). -/
def execFastFullReset (s : State) : Host.Outcome State Fault Refusal :=
  s.sendCommand (fastByte .fullReset)

/-- Phase WTX1 (41_sequencer.md R133). -/
def State.seqWtx1 (s : State) : State :=
  if s.tpTxBusy then s.pollOrHold else { s with ph := .p2 }

/-- Phase P2: clock the capture of a read, or send the payload of a write (41_sequencer.md R134–R136). -/
def State.seqP2 (s : State) : State :=
  if s.tKind = .read then State.submitPhase .wrrd (phase2Bytes s.tx s.tLen) .final s
  else State.submitPhase .wr (phase2Bytes s.tx s.tLen) .wtx2 s

/-- Phase WTX2 (41_sequencer.md R138). -/
def State.seqWtx2 (s : State) : State :=
  if s.tpTxBusy then s.pollOrHold else { s with pollCnt := 0#32, ph := .final }

/-- The successful end of a transaction: consume the completion, release `CS`, respond (41_sequencer.md R140). -/
def State.release (s : State) : State :=
  let t := State.setCs false { s with done := false }
  if s.tKind = .read then
    State.finish .ok ((readValue s.rx s.tLen).setWidth 64) (s.tLen.setWidth 8 - 1#8) t
  else State.finish .ok 0#64 0#8 t

/-- Phase FINAL (41_sequencer.md R140). -/
def State.seqFinal (s : State) : State :=
  if s.done = true ∧ s.tpBusy = false then s.release else s.pollOrHold

/-- SEQ's turn, by phase; at IDLE it has no step (41_sequencer.md R130). -/
def State.seqMove (s : State) : State :=
  match s.ph with
  | .idle => s
  | .start => s.seqStart
  | .wtx1 => s.seqWtx1
  | .p2 => s.seqP2
  | .wtx2 => s.seqWtx2
  | .final => s.seqFinal

end Sys2Proof.Machine
end

