-- ==== Sys2Proof/Machine/Agents.lean ====
section
/-! DEFINITION. Who moves, what it finds to execute, and what it does when there is nothing to execute
(00_scope.md R5, 41_sequencer.md R121, R127). -/

namespace Sys2Proof.Machine

/-- What the agent whose turn it is executes: HOST, at IDLE, the next request on its port; SEQ, at START, the command
byte `TX[0]`. -/
def State.fetch (s : State) : Option Fetched :=
  match s.draw.agent with
  | .host => if s.ph = .idle then s.requests.head?.map Fetched.request else none
  | .seq => if s.ph = .start then some (.wire s.tx.s0) else none
  | .tp => none
  | .rst => none

/-- HOST's issue takes the request off the port (41_sequencer.md R121, 70_reset_and_hazards.md R260); SEQ's START
takes nothing off it. -/
def State.takeRequest (s : State) : State :=
  { s with requests := if s.draw.agent = .host then s.requests.tail else s.requests }

/-- START with a byte in `TX[0]` that is no command byte of the table: it is sent like any other (41_sequencer.md
R131). No run reaches such a state (log 14). -/
def State.sendUndecoded (s : State) : State := s.seqStart

/-- The move of an agent that has nothing to execute. HOST waits (41_sequencer.md R121); SEQ takes its phase's step,
or holds (R130–R143); TP and RST take theirs. An agent without an enabled step leaves the state unchanged (log 2). -/
def State.agentMove (s : State) : State :=
  match s.draw.agent with
  | .host => s
  | .seq => s.seqMove
  | .tp => s.tpMove
  | .rst => s.rstMove

/-- Draw the free values of the next step (logs 2, 21). -/
def State.redraw (s : State) : State :=
  { s with draw := Config.draws s.tick, tick := s.tick + 1 }

/-- Redraw after a step that has a next state. -/
def thenRedraw : Host.Outcome State Fault Refusal → Host.Outcome State Fault Refusal
  | .next t => .next t.redraw
  | .fault r => .fault r
  | .refused r => .refused r

/-- The transaction a command byte belongs to, by its operation field (30_encoding.md R70–R72). -/
def kindOfCommand (b : Byte) : TransferKind :=
  if frameOp b = opRead then .read
  else if frameOp b = opWrite then .write
  else .fast

/-- The state with an instruction where its agent will look for it next: a request at the head of HOST's port with
HOST to move at IDLE, or a command byte in `TX[0]` with SEQ to move at START of a transaction of its kind (log 6). -/
def State.place (s : State) : Fetched → State
  | .request r =>
    { s with ph := .idle, requests := r :: s.requests, draw := { s.draw with agent := .host } }
  | .wire b =>
    { s with
      ph := .start, cs := true, tKind := kindOfCommand b, tx := { s.tx with s0 := b }
      draw := { s.draw with agent := .seq } }

end Sys2Proof.Machine
end

