-- ==== Sys2Proof/Machine/Codec.lean ====
section
/-! DEFINITION. The command frame codec CFC: `ENCF` and `DECF` (40_codec.md). -/

namespace Sys2Proof.Machine

/-- The check of both codec requests, the device field first (40_codec.md R103). -/
def codecError (dev op : BitVec 2) : Option Status :=
  if dev ≠ Config.deviceAddress then some .invalidDeviceAddress
  else if op ≠ opRead ∧ op ≠ opWrite then some .invalidOperationType
  else none

/-- `{zext_40(0), zext_8(dev), zext_8(reg), zext_8(op)}` (40_codec.md R105). -/
def packTriple (dev : BitVec 2) (reg : BitVec 4) (op : BitVec 2) : Word64 :=
  0#40 ++ dev.setWidth 8 ++ reg.setWidth 8 ++ op.setWidth 8

/-- End a codec request with its error, or with its result. -/
def State.codecResult (dev op : BitVec 2) (result : Word64) (s : State) : State :=
  match codecError dev op with
  | some e => State.takeError e s
  | none => State.finish .ok result 0#8 s

/-- `ENCF dev, reg, op` (40_codec.md R100). -/
def execEncf (reg : BitVec 4) (dev op : BitVec 2) (s : State) : Host.Outcome State Fault Refusal :=
  s.issue (s.codecResult dev op ((frame dev reg op).setWidth 64))

/-- `DECF byte` (40_codec.md R105). -/
def execDecf (byte : Byte) (s : State) : Host.Outcome State Fault Refusal :=
  s.issue (s.codecResult (frameDev byte) (frameOp byte)
    (packTriple (frameDev byte) (frameReg byte) (frameOp byte)))

end Sys2Proof.Machine
end

