-- ==== Sys2Proof/Machine/ConfigRequests.lean ====
section
/-! DEFINITION. The configuration requests and the unassigned opcodes (43_config.md). -/

namespace Sys2Proof.Machine

/-- Write the configuration register of an index, the pattern unchecked; `none` for an index that is no register
(43_config.md R200, 10_state.md R27). -/
def State.writeConfig (idx : BitVec 4) (value : Word64) (s : State) : Option State :=
  if idx = 0#4 then some { s with cfgFullScale := value }
  else if idx = 1#4 then some { s with cfgResolution := value.extractLsb' 0 32 }
  else if idx = 2#4 then some { s with cfgPollLimit := value.extractLsb' 0 32 }
  else none

/-- Read the configuration register of an index (43_config.md R205, 10_state.md R27). -/
def State.readConfig (idx : BitVec 4) (s : State) : Option Word64 :=
  if idx = 0#4 then some s.cfgFullScale
  else if idx = 1#4 then some (s.cfgResolution.setWidth 64)
  else if idx = 2#4 then some (s.cfgPollLimit.setWidth 64)
  else none

/-- `SETCFG idx, value` (43_config.md R200). -/
def execSetcfg (idx : BitVec 4) (value : Word64) (s : State) : Host.Outcome State Fault Refusal :=
  s.issue (match s.writeConfig idx value with
    | some t => State.finish .ok 0#64 0#8 t
    | none => State.takeError .invalidRegisterAddress s)

/-- `GETCFG idx` (43_config.md R205). -/
def execGetcfg (idx : BitVec 4) (s : State) : Host.Outcome State Fault Refusal :=
  s.issue (match s.readConfig idx with
    | some v => State.finish .ok v 0#8 s
    | none => State.takeError .invalidRegisterAddress s)

/-- A request with no operation (43_config.md R210). -/
def State.unknownRequest (s : State) : Host.Outcome State Fault Refusal :=
  s.issue (State.takeError .unknownRequest s)

/-- OPC 0x0 (43_config.md R210). -/
def execUnassigned0 (s : State) : Host.Outcome State Fault Refusal := s.unknownRequest

/-- OPC 0xB (43_config.md R210). -/
def execUnassignedB (s : State) : Host.Outcome State Fault Refusal := s.unknownRequest

/-- OPC 0xC (43_config.md R210). -/
def execUnassignedC (s : State) : Host.Outcome State Fault Refusal := s.unknownRequest

/-- OPC 0xD (43_config.md R210). -/
def execUnassignedD (s : State) : Host.Outcome State Fault Refusal := s.unknownRequest

/-- OPC 0xE (43_config.md R210). -/
def execUnassignedE (s : State) : Host.Outcome State Fault Refusal := s.unknownRequest

/-- OPC 0xF (43_config.md R210). -/
def execUnassignedF (s : State) : Host.Outcome State Fault Refusal := s.unknownRequest

end Sys2Proof.Machine
end

