-- ==== Sys2Proof/Machine/Binary64.lean ====
section
/-! DEFINITION. IEEE 754 binary64 patterns and rounding to nearest, ties to even, in exact natural-number arithmetic
(00_scope.md R9). A finite pattern's magnitude is the fraction `magNum / magDen`. -/

namespace Sys2Proof.Machine

/-- The sign bit 63. -/
def b64Sign (x : Word64) : Bool := x.getLsbD 63

/-- The biased exponent, bits 62:52. -/
def b64Exp (x : Word64) : Nat := (x.extractLsb' 52 11).toNat

/-- The fraction field, bits 51:0. -/
def b64Frac (x : Word64) : Nat := (x.extractLsb' 0 52).toNat

/-- Neither an infinity nor a NaN. -/
def b64Finite (x : Word64) : Bool := decide (b64Exp x ≠ 2047)

/-- The significand: the fraction with its hidden bit, which subnormals lack. -/
def b64Sig (x : Word64) : Nat :=
  if b64Exp x = 0 then b64Frac x else 2 ^ 52 + b64Frac x

/-- The exponent that scales the significand; a subnormal has that of the least normal number. -/
def b64Scale (x : Word64) : Nat := max (b64Exp x) 1

/-- The magnitude is `magNum / magDen`: the significand times `2 ^ (scale - 1075)`. -/
def magNum (x : Word64) : Nat := b64Sig x * 2 ^ (b64Scale x - 1075)

/-- See `magNum`. -/
def magDen (x : Word64) : Nat := 2 ^ (1075 - b64Scale x)

/-- `n / d` rounded to the nearest natural number, ties to even. -/
def roundHalfEven (n d : Nat) : Nat :=
  if 2 * (n % d) < d then n / d
  else if d < 2 * (n % d) then n / d + 1
  else n / d + n / d % 2

/-- `n / d` rounded to the nearest natural number, halves up: `floor(r + 1/2)` (42_converter.md R180). -/
def roundHalfAway (n d : Nat) : Nat := (2 * n + d) / (2 * d)

/-- Bits 62:0 of an infinity. -/
def infMagnitude : Nat := 2047 * 2 ^ 52

/-- Bits 62:0 of `num / den` rounded to binary64. In units of the least subnormal the number is `num * 2^1074 / den`;
`e` is the exponent of one unit in the last place there, 0 for subnormals. The significand carries into the exponent
field by addition. -/
def rneMagnitude (num den : Nat) : Nat :=
  let n := num * 2 ^ 1074
  let e := Nat.log2 (n / den) - 52
  min (e * 2 ^ 52 + roundHalfEven n (den * 2 ^ e)) infMagnitude

/-- `rne` of the number with the given sign and magnitude `num / den` (00_scope.md R9). A zero, and a magnitude that
rounds to zero, keep the sign given (log 15); a magnitude that rounds to 2^1024 or more gives an infinity (log 16). -/
def rne (neg : Bool) (num den : Nat) : Word64 :=
  BitVec.ofNat 64 (rneMagnitude num den + if neg then 2 ^ 63 else 0)

end Sys2Proof.Machine
end

