-- ==== Sys2Proof/Machine/Converter.lean ====
section
/-! DEFINITION. The voltage converter VC: `DEC24`, `TOVOLT` and `DSPLIT` (42_converter.md). -/

namespace Sys2Proof.Machine

/-- The 32-bit code of three bytes: bits 31:24 are 1 if bit 23 is, else 0 (42_converter.md R170). -/
def decode24 (b1 b2 b3 : Byte) : Word32 :=
  if b1.getLsbD 7 then 0xFF#8 ++ b1 ++ b2 ++ b3 else 0x00#8 ++ b1 ++ b2 ++ b3

/-- `DEC24 b1, b2, b3` (42_converter.md R170). -/
def execDec24 (b1 b2 b3 : Byte) (s : State) : Host.Outcome State Fault Refusal :=
  s.issue (State.finish .ok ((decode24 b1 b2 b3).signExtend 64) 0#8 s)

/-- `rne(code * fs)`, `none` where it is no finite number (42_converter.md R175). -/
def scaledProduct (code : Word32) (fs : Word64) : Option Word64 :=
  let t := rne (code.getLsbD 31 ^^ b64Sign fs) (code.toInt.natAbs * magNum fs) (magDen fs)
  if b64Finite t then some t else none

/-- `toVoltage`: multiply, round, divide, round; `none` is DecodeOutOfRange (42_converter.md R175). -/
def toVoltage (code : Word32) (fs : Word64) (res : Word32) : Option Word64 :=
  if res = 0#32 then none
  else if b64Finite fs then
    (scaledProduct code fs).map fun t => rne (b64Sign t) (magNum t) (magDen t * res.toNat)
  else none

/-- End a request with a value, or with DecodeOutOfRange where there is none. -/
def State.finishInRange (result : Option (Word64 × Byte)) (s : State) : State :=
  match result with
  | some (data, aux) => State.finish .ok data aux s
  | none => State.takeError .decodeOutOfRange s

/-- `TOVOLT code` (42_converter.md R175). -/
def execTovolt (code : Word32) (s : State) : Host.Outcome State Fault Refusal :=
  s.issue (s.finishInRange ((toVoltage code s.cfgFullScale s.cfgResolution).map fun v => (v, 0#8)))

/-- The sign, integer part and fraction digits of a finite number; `none` where the integer part does not fit
(42_converter.md R180, R181). -/
def splitFinite (x : Word64) (digits : Nat) : Option (Word64 × Byte) :=
  let whole := magNum x / magDen x
  let q := roundHalfAway (magNum x % magDen x * 10 ^ digits) (magDen x)
  let intPart := if q = 10 ^ digits then whole + 1 else whole
  let fracPart := if q = 10 ^ digits then 0 else q
  if 2 ^ 32 ≤ intPart then none
  else some (BitVec.ofNat 32 intPart ++ BitVec.ofNat 32 fracPart,
    if b64Sign x = true ∧ magNum x ≠ 0 then 1#8 else 0#8)

/-- `DSPLIT`'s result for any pattern; `none` is DecodeOutOfRange (42_converter.md R180). -/
def displaySplit (x : Word64) (digits : Nat) : Option (Word64 × Byte) :=
  if b64Finite x then splitFinite x digits else none

/-- `DSPLIT v, digits` (42_converter.md R180). -/
def execDsplit (voltage : Word64) (digits : BitVec 4) (s : State) : Host.Outcome State Fault Refusal :=
  s.issue (if Config.maxDigits < digits.toNat then State.takeError .invalidLength s
    else s.finishInRange (displaySplit voltage digits.toNat))

end Sys2Proof.Machine
end

