-- ==== Sys2Proof/Machine/Dispatch.lean ====
section
/-! DEFINITION. One arm per instruction. -/

namespace Sys2Proof.Machine

def exec (i : Instr) (s : State) : Host.Outcome State Fault Refusal :=
  match i with
  | .encf reg dev op => Sys2Proof.Machine.execEncf reg dev op s
  | .decf byte => Sys2Proof.Machine.execDecf byte s
  | .rdreg reg len => Sys2Proof.Machine.execRdreg reg len s
  | .wrreg reg len value => Sys2Proof.Machine.execWrreg reg len value s
  | .fast cmd => Sys2Proof.Machine.execFast cmd s
  | .dec24 b1 b2 b3 => Sys2Proof.Machine.execDec24 b1 b2 b3 s
  | .tovolt code => Sys2Proof.Machine.execTovolt code s
  | .dsplit voltage digits => Sys2Proof.Machine.execDsplit voltage digits s
  | .setcfg idx value => Sys2Proof.Machine.execSetcfg idx value s
  | .getcfg idx => Sys2Proof.Machine.execGetcfg idx s
  | .unassigned0 => Sys2Proof.Machine.execUnassigned0 s
  | .unassignedB => Sys2Proof.Machine.execUnassignedB s
  | .unassignedC => Sys2Proof.Machine.execUnassignedC s
  | .unassignedD => Sys2Proof.Machine.execUnassignedD s
  | .unassignedE => Sys2Proof.Machine.execUnassignedE s
  | .unassignedF => Sys2Proof.Machine.execUnassignedF s
  | .readFrame reg => Sys2Proof.Machine.execReadFrame reg s
  | .writeFrame reg => Sys2Proof.Machine.execWriteFrame reg s
  | .fastConversion => Sys2Proof.Machine.execFastConversion s
  | .fastStandby => Sys2Proof.Machine.execFastStandby s
  | .fastShutdown => Sys2Proof.Machine.execFastShutdown s
  | .fastFullReset => Sys2Proof.Machine.execFastFullReset s

end Sys2Proof.Machine
end

