-- ==== Sys2Proof/Machine/Step.lean ====
section
/-! DEFINITION. One step of one agent (00_scope.md R5). -/

namespace Sys2Proof.Machine

/-- The agent whose turn it is executes what it finds, or makes its own move; then the free values of the next step
are drawn. -/
def step (s : State) : Host.Outcome State Fault Refusal :=
  match s.fetch with
  | some f =>
    match decode f with
    | .ok i => thenRedraw (exec i s.takeRequest)
    | .error _ => .next s.sendUndecoded.redraw
  | none => .next s.agentMove.redraw

/-- The state whose next step runs the instruction with the given bits (log 6). -/
def State.withFetchWord (s : State) (nbits w : Nat) : State :=
  s.place (fetchedOfBits nbits w)

end Sys2Proof.Machine
end

