-- ==== Sys2Proof/Machine/Commands.lean ====
section
/-! DEFINITION. The pseudo-requests: how the source's command surface expands onto the block's requests (30_encoding.md
R83). HOST's own; no step of the block reads them. -/

namespace Sys2Proof.Machine

/-- The command surface, a register named by its address and the text operands already numbers. -/
inductive Command where
  | adc
  | registers
  | read (reg : BitVec 4)
  | write (reg : BitVec 4) (value : Word32)
  | single
  | scan
  | convert
  | standby
  | shutdown
  | default
  | about
  deriving DecidableEq, Repr

/-- One request of an expansion: a fixed one, or one whose operand is the response before it (42_converter.md R186). -/
inductive CommandStep where
  | request (i : Instr)
  | decodeSample
  | convertCode
  deriving DecidableEq, Repr

/-- `DEC24` of `RESP_DATA[23:0]`. -/
def decodeSampleOf (data : Word64) : Instr :=
  .dec24 (data.extractLsb' 16 8) (data.extractLsb' 8 8) (data.extractLsb' 0 8)

/-- `TOVOLT` of `RESP_DATA[31:0]`. -/
def convertCodeOf (data : Word64) : Instr := .tovolt (data.extractLsb' 0 32)

/-- The instruction HOST issues for one request of an expansion. -/
def CommandStep.instr (c : CommandStep) (s : State) : Instr :=
  match c with
  | .request i => i
  | .decodeSample => decodeSampleOf s.respData
  | .convertCode => convertCodeOf s.respData

/-- `READ r`: the fitting length, 1 for a reserved address. -/
def expandRead (reg : BitVec 4) : Instr :=
  .rdreg reg (BitVec.ofNat 4 ((fittingLength reg).getD 1))

/-- The payload length of `WRITE r v`: the register's width in bytes, 1 for a reserved address. -/
def writeLength (reg : BitVec 4) : BitVec 4 :=
  BitVec.ofNat 4 (((catalog reg).map fun e => e.width / 8).getD 1)

/-- `WRITE r v`. -/
def expandWrite (reg : BitVec 4) (value : Word32) : Instr :=
  .wrreg reg (writeLength reg) (writePayload (writeLength reg) (value.setWidth 64))

/-- The expansion of a command. `none`: the command is no request of the block (`SCAN`, `ADC`, `REGISTERs`, `about`),
or what it maps to is not in the source (`DEFAULT`, 91_not_in_source.md N14). -/
def expand : Command → Option (List CommandStep)
  | .adc => none
  | .registers => none
  | .read reg => some [.request (expandRead reg)]
  | .write reg value => some [.request (expandWrite reg value)]
  | .single => some [.request (.fast .conversion), .request (.rdreg 0x0#4 4#4), .decodeSample, .convertCode]
  | .scan => none
  | .convert => some [.request (.fast .conversion)]
  | .standby => some [.request (.fast .standby)]
  | .shutdown => some [.request (.fast .shutdown)]
  | .default => none
  | .about => none

end Sys2Proof.Machine
end

