-- ==== Sys2Proof/Machine/Runs.lean ====
section
/-! DEFINITION. Runs of the machine under given free values, finite and infinite, and what it is for an infinite run to be
weakly fair to the transport (41_sequencer.md R127). A schedule is the sequence of draws: it names the agent of every
turn, TP's answers and the captured bytes. -/

namespace Sys2Proof.Machine

/-- A step with given free values in place of the drawn ones. The machine's own step is `stepWith s.draw s`. -/
def stepWith (d : Draw) (s : State) : Host.Outcome State Fault Refusal := step { s with draw := d }

/-- A run with given free values. A statement about every list of draws is one about every finite run. -/
def runWith : List Draw → State → Option State
  | [], s => some s
  | d :: ds, s =>
    match stepWith d s with
    | .next t => runWith ds t
    | .fault _ => none
    | .refused _ => none

/-- An infinite run: the states `r` under the draws `ds`, one step after another. -/
def IsRun (ds : Nat → Draw) (r : Nat → State) : Prop :=
  ∀ n, stepWith (ds n) (r n) = .next (r (n + 1))

/-- TP's transmitter-idle step is enabled (41_sequencer.md R126). -/
def transmitterIdleEnabled (s : State) : Bool := s.tpTxBusy

/-- TP's completion step is enabled (41_sequencer.md R125). -/
def completionEnabled (s : State) : Bool := s.tpBusy && !s.tpTxBusy

/-- Weak fairness of a run to one step of an agent: where the step stays enabled from some turn on, the agent has a turn
from there on, and takes it. -/
def WeaklyFair (ds : Nat → Draw) (r : Nat → State) (a : Agent) (enabled : State → Bool) : Prop :=
  ∀ n, (∀ m, n ≤ m → enabled (r m) = true) → ∃ m, n ≤ m ∧ (ds m).agent = a

/-- The assumption about the transport: every TP step that stays enabled is eventually taken (41_sequencer.md R127;
log 3). -/
def FairToTp (ds : Nat → Draw) (r : Nat → State) : Prop :=
  WeaklyFair ds r .tp transmitterIdleEnabled ∧ WeaklyFair ds r .tp completionEnabled

end Sys2Proof.Machine
end

