-- ==== Sys2Proof/Safety.lean ====
section
/-! DEFINITION. The terms claims are made in: the next states the rules give, written out field by field; the invariant
of a run; what a whole transaction leaves; the value of a binary64 pattern as a rational number. -/

namespace Sys2Proof.Machine

/-- The state after `finish(status, data, aux)` (00_scope.md R8): the response registers, `PH = IDLE`, one response
event, and nothing else. -/
def responded (status : Status) (data : Word64) (aux : Byte) (s : State) : State :=
  { s with
    ph := .idle
    respValid := true
    respStatus := status
    respData := data
    respAux := aux
    trace := s.trace ++ [.resp status data aux] }

/-- The state after `raise e` (00_scope.md R8): the code, and zeros. -/
def errored (e : Status) (s : State) : State := responded e 0#64 0#8 s

/-- The state after `CS <- 0`: an event if it was 1 (41_sequencer.md R129). -/
def deselected (s : State) : State :=
  { s with cs := false, trace := s.trace ++ if s.cs then [.csDown] else [] }

/-- The state after an accepted transaction request (41_sequencer.md R121) that latched the given kind, length and
transmit bytes. -/
def accepted (kind : TransferKind) (len : BitVec 3) (tx : Buffer) (s : State) : State :=
  { s with
    tKind := kind
    tLen := len
    tx := tx
    respValid := false
    cs := true
    ph := .start
    trace := s.trace ++ if s.cs then [] else [.csUp] }

/-- The state after `DONE <- 0` and a submission that TP answered so, before SEQ acts on the answer (41_sequencer.md
R124, R131, R136). -/
def submitted (kind : SubmitKind) (bytes : List Byte) (answer : Answer) (s : State) : State :=
  match answer with
  | .accepted =>
    { s with
      done := false, tpBusy := true, tpTxBusy := true, tpCur := some ⟨kind, bytes⟩
      trace := s.trace ++ [.sub kind bytes .accepted] }
  | .busy => { s with done := false, trace := s.trace ++ [.sub kind bytes .busy] }
  | .fail => { s with done := false, trace := s.trace ++ [.sub kind bytes .fail] }

/-- What SEQ does with the answer to a submission of a phase whose successor is `next` (41_sequencer.md R131, R132,
R136). -/
def afterAnswer (kind : SubmitKind) (bytes : List Byte) (next : Phase) (answer : Answer) (s : State) : State :=
  match answer with
  | .accepted => { submitted kind bytes .accepted s with pollCnt := 0#32, ph := next }
  | .busy => errored .transportBusy (deselected (submitted kind bytes .busy s))
  | .fail => errored .transportSubmitFailure (deselected (submitted kind bytes .fail s))

/-- The 30 command bytes the block can send: 13 read frames, 13 write frames, 4 fast commands (30_encoding.md
R73). -/
def commandBytes : List Byte :=
  [0x41#8, 0x45#8, 0x49#8, 0x4D#8, 0x51#8, 0x55#8, 0x59#8, 0x5D#8, 0x61#8, 0x65#8, 0x69#8, 0x75#8, 0x7D#8,
   0x42#8, 0x46#8, 0x4A#8, 0x4E#8, 0x52#8, 0x56#8, 0x5A#8, 0x5E#8, 0x62#8, 0x66#8, 0x6A#8, 0x76#8, 0x7E#8,
   0x68#8, 0x6C#8, 0x70#8, 0x78#8]

/-- The reset values the spec gives, and that the block is then ready (70_reset_and_hazards.md R250). -/
def atReset (s : State) : Prop :=
  s.ph = .idle ∧ s.ready = true ∧ s.cs = false ∧ s.done = false ∧ s.pollCnt = 0#32 ∧
    s.cfgFullScale = 0x400A666666666666#64 ∧ s.cfgResolution = 0x00800000#32 ∧ s.cfgPollLimit = 0x00000000#32 ∧
    s.respValid = false ∧ s.respStatus.code = 0x0#4 ∧ s.respData = 0#64 ∧ s.respAux = 0#8

/-- SEQ waits at this phase (41_sequencer.md R130). -/
def waiting : Phase → Bool
  | .idle => false
  | .start => false
  | .wtx1 => true
  | .p2 => false
  | .wtx2 => true
  | .final => true

/-- The wait condition of a waiting phase: transmitter not busy, or transfer complete and not busy (41_sequencer.md
R130). -/
def waitOver (s : State) : Bool :=
  match s.ph with
  | .idle => false
  | .start => false
  | .wtx1 => !s.tpTxBusy
  | .p2 => false
  | .wtx2 => !s.tpTxBusy
  | .final => s.done && !s.tpBusy

/-- The state after SEQ's turn at a wait whose condition is false: held in unbounded mode, else one poll more, and at
the limit the timeout (41_sequencer.md R142, R143). -/
def heldOrPolled (s : State) : State :=
  if s.cfgPollLimit = 0#32 then s
  else if s.pollCnt.toNat + 1 < s.cfgPollLimit.toNat then { s with pollCnt := s.pollCnt + 1#32 }
  else errored .transportTimeout (deselected { s with pollCnt := s.pollCnt + 1#32 })

/-- The invariant of every run: chip-select is asserted exactly while a transaction is in flight, which holds a legal
length, a command byte of its kind and, for a read, fill bytes; the phase lies on the path of the kind; no response is
valid meanwhile; the polls of a wait are below its limit; errors report zeros; and the transport owes a completion, or
has delivered it, at every wait. -/
structure Inv (s : State) : Prop where
  /-- 10_state.md R24. -/
  cs_iff : s.cs = true ↔ s.ph ≠ .idle
  /-- 10_state.md R20, `T_LEN` "1 to 4". -/
  len_legal : s.ph ≠ .idle → 1 ≤ s.tLen.toNat ∧ s.tLen.toNat ≤ 4
  /-- 30_encoding.md R73. -/
  command_legal : s.ph ≠ .idle → s.tx.s0 ∈ commandBytes ∧ kindOfCommand s.tx.s0 = s.tKind
  /-- 41_sequencer.md R134. -/
  fill_bytes : s.ph ≠ .idle → s.tKind = .read → ∀ b ∈ phase2Bytes s.tx s.tLen, b = 0x00#8
  /-- 41_sequencer.md R130: `WTX2` is on the path of a write only. -/
  wtx2_write : s.ph = .wtx2 → s.tKind = .write
  /-- 41_sequencer.md R130: a fast command has one phase. -/
  fast_one_phase : s.tKind = .fast → s.ph ≠ .wtx1 ∧ s.ph ≠ .p2 ∧ s.ph ≠ .wtx2
  /-- 10_state.md R26: no valid response while a transaction is in flight. -/
  resp_invalid : s.ph ≠ .idle → s.respValid = false
  /-- 60_exceptions.md R231: the counter stops at the limit. -/
  poll_below : waiting s.ph = true → s.cfgPollLimit ≠ 0#32 → s.pollCnt.toNat < s.cfgPollLimit.toNat
  /-- 60_exceptions.md R221. -/
  error_zero : s.respStatus ≠ .ok → s.respData = 0#64 ∧ s.respAux = 0#8
  /-- 41_sequencer.md R124: both signals rise together, and the transmitter falls first. -/
  tx_busy : s.tpTxBusy = true → s.tpBusy = true
  /-- 41_sequencer.md R145: a waiting transaction's completion is owed or delivered. -/
  completion_due : s.notify = true → waiting s.ph = true → s.tpBusy = true ∨ s.done = true

/-- Every `CS-` of the trace answers a `CS+`, and one more is open exactly while `CS = 1` (41_sequencer.md R128). -/
def chipSelectPaired (s : State) : Prop :=
  s.trace.count .csUp = s.trace.count .csDown + if s.cs then 1 else 0

/-- SEQ has a step: its submission, the end of a wait that is over, or a poll in bounded mode (41_sequencer.md R130, R131,
R136, R142, R143). -/
def seqEnabled (s : State) : Bool :=
  match s.ph with
  | .idle => false
  | .start => true
  | .p2 => true
  | .wtx1 => waitOver s || decide (s.cfgPollLimit ≠ 0#32)
  | .wtx2 => waitOver s || decide (s.cfgPollLimit ≠ 0#32)
  | .final => waitOver s || decide (s.cfgPollLimit ≠ 0#32)

/-- No reset, and every submission is answered `ACCEPTED` where TP can accept it. The turns may be anyone's. -/
def allAccepted (ds : List Draw) : Prop :=
  ∀ d ∈ ds, d.agent ≠ .rst ∧ d.answer = .accepted

/-- One round of a schedule in which SEQ moves and TP then moves twice, `n` times over. -/
def fairRounds : Nat → List Agent
  | 0 => []
  | n + 1 => .seq :: .tp :: .tp :: fairRounds n

/-- The number of the bytes, most significant first (20_memory.md R55). -/
def bytesValue (bytes : List Byte) : Nat :=
  bytes.foldl (fun v b => v * 256 + b.toNat) 0

/-- The block and its transport after a transaction that finished with status 0x0, HOST having the requests `rest` still
to issue (41_sequencer.md R140, R141). -/
def answeredOk (data : Word64) (aux : Byte) (rest : List Request) (t : State) : Prop :=
  t.ph = .idle ∧ t.cs = false ∧ t.done = false ∧ t.requests = rest ∧ t.respValid = true ∧ t.respStatus = .ok ∧
    t.respData = data ∧ t.respAux = aux ∧ t.tpBusy = false ∧ t.tpTxBusy = false

/-- From `s` to `t` one register read took place, with the trace of 41_sequencer.md R150, and was answered with the
captured bytes but the first (R139, R165). -/
def readTransaction (reg len : BitVec 4) (c : Capture) (rest : List Request) (s t : State) : Prop :=
  let l := [c.c1, c.c2, c.c3, c.c4].take len.toNat
  let v := BitVec.ofNat 64 (bytesValue l.tail)
  answeredOk v (len.setWidth 8 - 1#8) rest t ∧
    t.trace = s.trace ++
      [.csUp, .sub .wr [0b01#2 ++ reg ++ 0b01#2] .accepted,
        .sub .wrrd (List.replicate len.toNat 0x00#8) .accepted, .cap l, .csDown,
        .resp .ok v (len.setWidth 8 - 1#8)]

/-- From `s` to `t` one register write took place, with the trace of 41_sequencer.md R155. -/
def writeTransaction (reg : BitVec 4) (payload : List Byte) (rest : List Request) (s t : State) : Prop :=
  answeredOk 0#64 0#8 rest t ∧
    t.trace = s.trace ++
      [.csUp, .sub .wr [0b01#2 ++ reg ++ 0b10#2] .accepted, .sub .wr payload .accepted, .csDown, .resp .ok 0#64 0#8]

/-- From `s` to `t` one fast command took place, with the trace of 41_sequencer.md R160; nothing was captured, and the
configuration is as it was (R167). -/
def fastTransaction (b : Byte) (rest : List Request) (s t : State) : Prop :=
  answeredOk 0#64 0#8 rest t ∧ t.rx = s.rx ∧ t.cfgFullScale = s.cfgFullScale ∧ t.cfgResolution = s.cfgResolution ∧
    t.cfgPollLimit = s.cfgPollLimit ∧
    t.trace = s.trace ++ [.csUp, .sub .wr [b] .accepted, .csDown, .resp .ok 0#64 0#8]

/-- Two requests of one OPC that agree on the fields of CTL and the bits of DATA which that OPC uses, as the tables of
30_encoding.md R75 and R76 list them. -/
def usedFieldsAgree (r r' : Request) : Prop :=
  let opc := r.ctl.extractLsb' 28 4
  let len := (r.ctl.extractLsb' 16 4).toNat
  let idx := r.ctl.extractLsb' 24 4
  r'.ctl.extractLsb' 28 4 = opc ∧
    (opc ∈ [0x1#4, 0x3#4, 0x4#4, 0x9#4, 0xA#4] → r'.ctl.extractLsb' 24 4 = idx) ∧
    (opc = 0x1#4 → r'.ctl.extractLsb' 22 2 = r.ctl.extractLsb' 22 2) ∧
    (opc = 0x1#4 → r'.ctl.extractLsb' 20 2 = r.ctl.extractLsb' 20 2) ∧
    (opc ∈ [0x3#4, 0x4#4, 0x8#4] → r'.ctl.extractLsb' 16 4 = r.ctl.extractLsb' 16 4) ∧
    (opc = 0x5#4 → r'.ctl.extractLsb' 14 2 = r.ctl.extractLsb' 14 2) ∧
    (opc = 0x2#4 → r'.data.extractLsb' 0 8 = r.data.extractLsb' 0 8) ∧
    (opc = 0x4#4 → 1 ≤ len → len ≤ 4 → r'.data.toNat % 2 ^ (8 * len) = r.data.toNat % 2 ^ (8 * len)) ∧
    (opc = 0x6#4 → r'.data.extractLsb' 0 24 = r.data.extractLsb' 0 24) ∧
    (opc = 0x7#4 → r'.data.extractLsb' 0 32 = r.data.extractLsb' 0 32) ∧
    (opc = 0x8#4 → r'.data = r.data) ∧
    (opc = 0x9#4 → idx = 0#4 → r'.data = r.data) ∧
    (opc = 0x9#4 → idx = 1#4 ∨ idx = 2#4 → r'.data.extractLsb' 0 32 = r.data.extractLsb' 0 32)

/-- The state after `TOVOLT` of a code: multiply, round, divide, round, or DecodeOutOfRange (42_converter.md R175; the
sign of a zero and the overflow threshold of `rne` are logs 15 and 16). -/
def converted (code : Word32) (s : State) : State :=
  let fs := s.cfgFullScale
  let res := s.cfgResolution.toNat
  let p := rne (decide (code.toInt < 0) ^^ b64Sign fs) (code.toInt.natAbs * magNum fs) (magDen fs)
  if res ≠ 0 ∧ b64Finite fs = true ∧ b64Finite p = true then
    responded .ok (rne (b64Sign p) (magNum p) (magDen p * res)) 0#8 s
  else errored .decodeOutOfRange s

/-- The rational value of a finite binary64 pattern, read from its fields: `±(1 + f/2^52) * 2^(e - 1023)`, or
`±(f/2^52) * 2^(-1022)` where the exponent field `e` is 0 (00_scope.md R9). -/
def b64Value (x : Word64) : ℚ :=
  (if x.getLsbD 63 then -1 else 1) *
    (if (x.extractLsb' 52 11).toNat = 0
      then ((x.extractLsb' 0 52).toNat : ℚ) / 2 ^ 52 * (2 : ℚ) ^ (-1022 : ℤ)
      else (1 + ((x.extractLsb' 0 52).toNat : ℚ) / 2 ^ 52) * (2 : ℚ) ^ (((x.extractLsb' 52 11).toNat : ℤ) - 1023))

end Sys2Proof.Machine
end

