-- ==== Sys2Proof/Certificates/Slice0/Obligations.lean ====
section
/-! DEFINITION. What is claimed of the model: for each statement, the rule of spec/ it says, in the terms of
Sys2Proof/Safety.lean. -/

open Sys2Proof Sys2Proof.Machine

/-! ### Encodings -/

/-- Decoding inverts encoding: every well-formed instruction, every operand value (30_encoding.md sections 1, 2, 4). -/
def Obligations.DecodeInvertsEncode : Prop :=
  ∀ i : Instr, WellFormed i → decode (encode i) = .ok i

/-- A command byte that decodes is the encoding of what it decodes to (30_encoding.md section 1). -/
def Obligations.EncodeInvertsWireDecode : Prop :=
  ∀ (b : Byte) (i : Instr), decode (.wire b) = .ok i → encode i = .wire b

/-- Every request decodes; two requests of one OPC that agree on the fields and bits which that OPC uses decode alike, so
that issued in one state they behave alike, whatever stands in `CTL[13:0]` and in every other unused bit; an unassigned
OPC finishes with UnknownRequest (30_encoding.md R79). What a request decodes to is well formed and is its own word's. -/
def Obligations.UnusedRequestBitsAreIgnored : Prop :=
  (∀ r : Request, ∃ i, decode (.request r) = .ok i) ∧
  (∀ r r' : Request, usedFieldsAgree r r' →
    decode (.request r) = decode (.request r') ∧
    ∀ (s : State) (rest : List Request), s.draw.agent = .host → s.ph = .idle →
      step { s with requests := r :: rest } = step { s with requests := r' :: rest }) ∧
  (∀ (r : Request) (i : Instr), decode (.request r) = .ok i →
    WellFormed i ∧ decode (encode i) = .ok i ∧
      ∀ low : BitVec 14, decode (.request { r with ctl := r.ctl.extractLsb' 14 18 ++ low }) = .ok i) ∧
  (∀ (r : Request) (s : State), s.ph = .idle →
    ctlOpc r.ctl ∈ [0x0#4, 0xB#4, 0xC#4, 0xD#4, 0xE#4, 0xF#4] →
    ∃ i, decode (.request r) = .ok i ∧ exec i s = .next (errored .unknownRequest s))

/-- Words written out from the spec decode to what they stand for (30_encoding.md R70, R72, R75, R77, R80). A sanity
statement: one word or two of each family. -/
def Obligations.SpecWordsDecode : Prop :=
  decode (.request ⟨0x14600000#32, 0#64⟩) = .ok (.encf 0x4#4 0b01#2 0b10#2) ∧
  decode (.request ⟨0x20000000#32, 0x52#64⟩) = .ok (.decf 0x52#8) ∧
  decode (.request ⟨0x30040000#32, 0#64⟩) = .ok (.rdreg 0x0#4 4#4) ∧
  decode (.request ⟨0x47030000#32, 0xFFFFFFFFFF123456#64⟩) = .ok (.wrreg 0x7#4 3#4 0x123456#32) ∧
  decode (.request ⟨0x50008000#32, 0#64⟩) = .ok (.fast .shutdown) ∧
  decode (.request ⟨0x60000000#32, 0x800001#64⟩) = .ok (.dec24 0x80#8 0x00#8 0x01#8) ∧
  decode (.request ⟨0x80030000#32, 0x400A666666666666#64⟩) = .ok (.dsplit 0x400A666666666666#64 3#4) ∧
  decode (.request ⟨0x92000000#32, 1#64⟩) = .ok (.setcfg 2#4 1#64) ∧
  decode (.request ⟨0xF4010000#32, 0#64⟩) = .ok .unassignedF ∧
  decode (.wire 0x7D#8) = .ok (.readFrame 0xF#4) ∧
  decode (.wire 0x52#8) = .ok (.writeFrame 0x4#4) ∧
  decode (.wire 0x6C#8) = .ok .fastStandby ∧
  decode (.wire 0x43#8) = .error .noSuchOperation

/-- The command bytes the block can send are exactly the thirty of 30_encoding.md R73: what a START step submits in a
state of the invariant is one of them, and each is latched by some request. -/
def Obligations.CommandBytesAreTheThirty : Prop :=
  (∀ (s t : State) (k : SubmitKind) (l : List Byte) (a : Answer) (ev : List Event), Inv s → s.ph = .start →
    step s = .next t → t.trace = s.trace ++ ev → Event.sub k l a ∈ ev →
      k = .wr ∧ ∃ b ∈ commandBytes, l = [b]) ∧
  (∀ b ∈ commandBytes, ∀ s : State, s.ph = .idle →
    ∃ i t, exec i s = .next t ∧ t.ph = .start ∧ t.tx.s0 = b)

/-! ### The codec -/

/-- `ENCF` by its rule: operands, result, errors, and nothing else written (40_codec.md R100). -/
def Obligations.EncfPacksAFrame : Prop :=
  ∀ (r : Request) (s : State) (reg : BitVec 4) (dev op : BitVec 2),
    r.ctl.extractLsb' 28 4 = 0x1#4 → r.ctl.extractLsb' 24 4 = reg → r.ctl.extractLsb' 22 2 = dev →
    r.ctl.extractLsb' 20 2 = op → s.ph = .idle →
    decode (.request r) = .ok (.encf reg dev op) ∧
    (dev = 0b01#2 → op = 0b01#2 ∨ op = 0b10#2 →
      exec (.encf reg dev op) s =
        .next (responded .ok (BitVec.ofNat 64 (dev.toNat * 64 + reg.toNat * 4 + op.toNat)) 0#8 s)) ∧
    (dev ≠ 0b01#2 → exec (.encf reg dev op) s = .next (errored .invalidDeviceAddress s)) ∧
    (dev = 0b01#2 → op = 0b00#2 ∨ op = 0b11#2 →
      exec (.encf reg dev op) s = .next (errored .invalidOperationType s))

/-- `DECF` by its rule (40_codec.md R105): the triple of the byte's fields, the device check first. -/
def Obligations.DecfUnpacksAFrame : Prop :=
  ∀ (r : Request) (s : State) (b : Byte),
    r.ctl.extractLsb' 28 4 = 0x2#4 → r.data.extractLsb' 0 8 = b → s.ph = .idle →
    decode (.request r) = .ok (.decf b) ∧
    (b.extractLsb' 6 2 = 0b01#2 → b.extractLsb' 0 2 = 0b01#2 ∨ b.extractLsb' 0 2 = 0b10#2 →
      exec (.decf b) s =
        .next (responded .ok
          (BitVec.ofNat 64 (0x10000 + (b.extractLsb' 2 4).toNat * 0x100 + (b.extractLsb' 0 2).toNat)) 0#8 s)) ∧
    (b.extractLsb' 6 2 ≠ 0b01#2 → exec (.decf b) s = .next (errored .invalidDeviceAddress s)) ∧
    (b.extractLsb' 6 2 = 0b01#2 → b.extractLsb' 0 2 = 0b00#2 ∨ b.extractLsb' 0 2 = 0b11#2 →
      exec (.decf b) s = .next (errored .invalidOperationType s))

/-- Decoding an encoded frame recovers the triple, encoding a decoded byte gives it back, and encoding is injective on
the valid triples (40_codec.md R106). -/
def Obligations.FrameRoundTrip : Prop :=
  (∀ (reg : BitVec 4) (op : BitVec 2) (s : State), s.ph = .idle → op = 0b01#2 ∨ op = 0b10#2 →
    ∃ t u, exec (.encf reg 0b01#2 op) s = .next t ∧ t.respStatus = .ok ∧
      exec (.decf (t.respData.extractLsb' 0 8)) t = .next u ∧ u.respStatus = .ok ∧
      u.respData.extractLsb' 16 8 = 1#8 ∧ u.respData.extractLsb' 8 8 = reg.setWidth 8 ∧
      u.respData.extractLsb' 0 8 = op.setWidth 8) ∧
  (∀ (b : Byte) (s t : State), exec (.decf b) s = .next t → t.respStatus = .ok →
    ∃ u, exec (.encf (t.respData.extractLsb' 8 4) (t.respData.extractLsb' 16 2) (t.respData.extractLsb' 0 2)) t =
      .next u ∧ u.respStatus = .ok ∧ u.respData = b.setWidth 64) ∧
  (∀ (reg reg' : BitVec 4) (op op' : BitVec 2) (s t t' : State),
    exec (.encf reg 0b01#2 op) s = .next t → exec (.encf reg' 0b01#2 op') s = .next t' →
    t.respStatus = .ok → t'.respStatus = .ok → t.respData = t'.respData → reg = reg' ∧ op = op')

/-! ### Issuing transactions -/

/-- `RDREG` reads its register from `CTL[27:24]` and its length from `CTL[19:16]`; accepted, it latches READ, the length,
the read frame and `len` fill bytes, and asserts `CS` (the issue step of 41_sequencer.md section 5). The slots past `len`
and everything else are unchanged. -/
def Obligations.RdregLatchesARead : Prop :=
  ∀ (r : Request) (s : State) (reg len : BitVec 4),
    r.ctl.extractLsb' 28 4 = 0x3#4 → r.ctl.extractLsb' 24 4 = reg → r.ctl.extractLsb' 16 4 = len → s.ph = .idle →
    decode (.request r) = .ok (.rdreg reg len) ∧
    (reg ∉ [0xB#4, 0xC#4, 0xE#4] → 1 ≤ len.toNat → len.toNat ≤ 4 →
      exec (.rdreg reg len) s = .next (accepted .read (len.setWidth 3)
        { s0 := 0x41#8 + reg.setWidth 8 * 4#8
          s1 := 0x00#8
          s2 := if 2 ≤ len.toNat then 0x00#8 else s.tx.s2
          s3 := if 3 ≤ len.toNat then 0x00#8 else s.tx.s3
          s4 := if 4 ≤ len.toNat then 0x00#8 else s.tx.s4 } s))

/-- `WRREG` reads its register from `CTL[27:24]`, its length from `CTL[19:16]` and its payload from the low bytes of
`DATA`; accepted, it latches WRITE, the length, the write frame and the payload, most significant byte first, and asserts
`CS` (the issue step of 41_sequencer.md section 5). -/
def Obligations.WrregLatchesAWrite : Prop :=
  ∀ (r : Request) (s : State) (reg len : BitVec 4),
    r.ctl.extractLsb' 28 4 = 0x4#4 → r.ctl.extractLsb' 24 4 = reg → r.ctl.extractLsb' 16 4 = len → s.ph = .idle →
    ∃ v : Word32, decode (.request r) = .ok (.wrreg reg len v) ∧
      (reg ∉ [0xB#4, 0xC#4, 0xE#4] →
        ∃ tx : Buffer, tx.s0 = 0x42#8 + reg.setWidth 8 * 4#8 ∧
          (len = 1#4 → exec (.wrreg reg len v) s = .next (accepted .write 1#3 tx s) ∧
            tx.s1 = r.data.extractLsb' 0 8 ∧ tx.s2 = s.tx.s2 ∧ tx.s3 = s.tx.s3 ∧ tx.s4 = s.tx.s4) ∧
          (len = 2#4 → exec (.wrreg reg len v) s = .next (accepted .write 2#3 tx s) ∧
            tx.s1 = r.data.extractLsb' 8 8 ∧ tx.s2 = r.data.extractLsb' 0 8 ∧ tx.s3 = s.tx.s3 ∧ tx.s4 = s.tx.s4) ∧
          (len = 3#4 → exec (.wrreg reg len v) s = .next (accepted .write 3#3 tx s) ∧
            tx.s1 = r.data.extractLsb' 16 8 ∧ tx.s2 = r.data.extractLsb' 8 8 ∧ tx.s3 = r.data.extractLsb' 0 8 ∧
            tx.s4 = s.tx.s4) ∧
          (len = 4#4 → exec (.wrreg reg len v) s = .next (accepted .write 4#3 tx s) ∧
            tx.s1 = r.data.extractLsb' 24 8 ∧ tx.s2 = r.data.extractLsb' 16 8 ∧ tx.s3 = r.data.extractLsb' 8 8 ∧
            tx.s4 = r.data.extractLsb' 0 8))

/-- `FAST` is never refused: it latches FAST, length 1 and the selected byte, and asserts `CS` (the issue step of
41_sequencer.md section 5, with the selector of 30_encoding.md section 2). -/
def Obligations.FastLatchesACommand : Prop :=
  ∀ (r : Request) (s : State), r.ctl.extractLsb' 28 4 = 0x5#4 → s.ph = .idle →
    (r.ctl.extractLsb' 14 2 = 0b00#2 → decode (.request r) = .ok (.fast .conversion) ∧
      exec (.fast .conversion) s = .next (accepted .fast 1#3 { s.tx with s0 := 0x68#8 } s)) ∧
    (r.ctl.extractLsb' 14 2 = 0b01#2 → decode (.request r) = .ok (.fast .standby) ∧
      exec (.fast .standby) s = .next (accepted .fast 1#3 { s.tx with s0 := 0x6C#8 } s)) ∧
    (r.ctl.extractLsb' 14 2 = 0b10#2 → decode (.request r) = .ok (.fast .shutdown) ∧
      exec (.fast .shutdown) s = .next (accepted .fast 1#3 { s.tx with s0 := 0x70#8 } s)) ∧
    (r.ctl.extractLsb' 14 2 = 0b11#2 → decode (.request r) = .ok (.fast .fullReset) ∧
      exec (.fast .fullReset) s = .next (accepted .fast 1#3 { s.tx with s0 := 0x78#8 } s))

/-- A transaction request refused by its validation finishes in the issue step and touches nothing but the response:
`CS` is not asserted, nothing is submitted (41_sequencer.md R122). The register is checked first. -/
def Obligations.ValidationTouchesNoBus : Prop :=
  ∀ (reg len : BitVec 4) (v : Word32) (s : State), s.ph = .idle →
    (reg ∈ [0xB#4, 0xC#4, 0xE#4] →
      exec (.rdreg reg len) s = .next (errored .invalidRegisterAddress s) ∧
      exec (.wrreg reg len v) s = .next (errored .invalidRegisterAddress s)) ∧
    (reg ∉ [0xB#4, 0xC#4, 0xE#4] → len.toNat = 0 ∨ 5 ≤ len.toNat →
      exec (.rdreg reg len) s = .next (errored .invalidLength s) ∧
      exec (.wrreg reg len v) s = .next (errored .invalidLength s))

/-! ### The command bytes -/

/-- Each command byte, due at START, is submitted alone; accepted, it leads to the wait of its kind, a fast command's to
FINAL and a frame's to WTX1 (41_sequencer.md section 4, phase START; that a command byte executes as the START step is
the model's reading, log 13). Everything else is unchanged. -/
def Obligations.CommandBytesAreSent : Prop :=
  ∀ s : State, s.ph = .start → s.tpTxBusy = false → s.draw.answer = .accepted →
    (∀ reg : BitVec 4, s.tKind = .read → s.tx.s0 = 0b01#2 ++ reg ++ 0b01#2 →
      exec (.readFrame reg) s = .next (afterAnswer .wr [s.tx.s0] .wtx1 .accepted s)) ∧
    (∀ reg : BitVec 4, s.tKind = .write → s.tx.s0 = 0b01#2 ++ reg ++ 0b10#2 →
      exec (.writeFrame reg) s = .next (afterAnswer .wr [s.tx.s0] .wtx1 .accepted s)) ∧
    (s.tKind = .fast → s.tx.s0 = 0x68#8 →
      exec .fastConversion s = .next (afterAnswer .wr [0x68#8] .final .accepted s)) ∧
    (s.tKind = .fast → s.tx.s0 = 0x6C#8 →
      exec .fastStandby s = .next (afterAnswer .wr [0x6C#8] .final .accepted s)) ∧
    (s.tKind = .fast → s.tx.s0 = 0x70#8 →
      exec .fastShutdown s = .next (afterAnswer .wr [0x70#8] .final .accepted s)) ∧
    (s.tKind = .fast → s.tx.s0 = 0x78#8 →
      exec .fastFullReset s = .next (afterAnswer .wr [0x78#8] .final .accepted s))

/-- The START step of SEQ, whatever byte stands in `TX[0]` and whatever TP answers (41_sequencer.md R131). -/
def Obligations.StartSubmitsTheCommandByte : Prop :=
  ∀ s : State, s.draw.agent = .seq → s.ph = .start →
    step s = .next (afterAnswer .wr [s.tx.s0] (if s.tKind = .fast then .final else .wtx1) s.tpAnswer s).redraw

/-! ### The phases -/

/-- WTX1: on an idle transmitter, to P2 (41_sequencer.md R133); on a busy one, a hold or a poll. -/
def Obligations.Wtx1WaitsForTheTransmitter : Prop :=
  ∀ s : State, s.draw.agent = .seq → s.ph = .wtx1 →
    (s.tpTxBusy = false → step s = .next ({ s with ph := .p2 } : State).redraw) ∧
    (s.tpTxBusy = true → step s = .next (heldOrPolled s).redraw)

/-- WTX2: on an idle transmitter, to FINAL with the poll counter reset (41_sequencer.md R138); on a busy one, a hold or
a poll. A read never enters WTX2: its P2 step leads to FINAL. -/
def Obligations.Wtx2WaitsForTheTransmitter : Prop :=
  (∀ s : State, s.draw.agent = .seq → s.ph = .wtx2 →
    (s.tpTxBusy = false → step s = .next ({ s with pollCnt := 0#32, ph := .final } : State).redraw) ∧
    (s.tpTxBusy = true → step s = .next (heldOrPolled s).redraw)) ∧
  (∀ s t : State, s.ph ≠ .wtx2 → step s = .next t → t.ph = .wtx2 → s.ph = .p2 ∧ s.tKind ≠ .read)

/-- P2: a read clocks `T_LEN` bytes out as `WRRD` and goes to FINAL, a write sends its payload as `WR` and goes to WTX2,
each in one submission of `TX[1..T_LEN]` (41_sequencer.md R136). -/
def Obligations.P2SubmitsThePayload : Prop :=
  ∀ s : State, s.draw.agent = .seq → s.ph = .p2 → 1 ≤ s.tLen.toNat → s.tLen.toNat ≤ 4 →
    ∃ l : List Byte, l.length = s.tLen.toNat ∧ l <+: [s.tx.s1, s.tx.s2, s.tx.s3, s.tx.s4] ∧
      (s.tKind = .read → step s = .next (afterAnswer .wrrd l .final s.tpAnswer s).redraw) ∧
      (s.tKind ≠ .read → step s = .next (afterAnswer .wr l .wtx2 s.tpAnswer s).redraw)

/-- FINAL: with the completion there and the transport not busy, SEQ consumes it, releases `CS` and responds: a read
with the captured bytes after the dummy-clock byte, most significant first, a write or a fast command with zeros
(41_sequencer.md R139, R140); else it holds or polls. -/
def Obligations.FinalReleases : Prop :=
  ∀ s : State, s.draw.agent = .seq → s.ph = .final →
    (s.done = true → s.tpBusy = false → s.tKind = .read → 1 ≤ s.tLen.toNat → s.tLen.toNat ≤ 4 →
      step s = .next (responded .ok
        (BitVec.ofNat 64 (bytesValue ([s.rx.s2, s.rx.s3, s.rx.s4].take (s.tLen.toNat - 1))))
        (BitVec.ofNat 8 (s.tLen.toNat - 1)) (deselected { s with done := false })).redraw) ∧
    (s.done = true → s.tpBusy = false → s.tKind ≠ .read →
      step s = .next (responded .ok 0#64 0#8 (deselected { s with done := false })).redraw) ∧
    (s.done = false ∨ s.tpBusy = true → step s = .next (heldOrPolled s).redraw)

/-- A wait whose condition is false: in unbounded mode SEQ holds, and HOST too, until TP (or reset) moves
(41_sequencer.md R143); in bounded mode SEQ counts one poll and, at the limit, ends the transaction with
TransportTimeout; every entry to a wait resets the count (R142). -/
def Obligations.FalseWaitsHoldOrPoll : Prop :=
  (∀ s : State, waiting s.ph = true → waitOver s = false →
    (s.cfgPollLimit = 0#32 → s.draw.agent = .seq ∨ s.draw.agent = .host → step s = .next s.redraw) ∧
    (s.cfgPollLimit ≠ 0#32 → s.draw.agent = .seq → s.pollCnt.toNat + 1 < s.cfgPollLimit.toNat →
      step s = .next ({ s with pollCnt := s.pollCnt + 1#32 } : State).redraw) ∧
    (s.cfgPollLimit ≠ 0#32 → s.draw.agent = .seq → s.cfgPollLimit.toNat ≤ s.pollCnt.toNat + 1 →
      step s = .next
        (errored .transportTimeout (deselected { s with pollCnt := s.pollCnt + 1#32 })).redraw)) ∧
  (∀ s t : State, step s = .next t → waiting t.ph = true → t.ph ≠ s.ph → t.pollCnt = 0#32)

/-- A transaction that finishes with status 0x0 leaves the transport idle, its transmitter too (41_sequencer.md, after
phase FINAL). A combinational request promises nothing of it. -/
def Obligations.SuccessLeavesTheTransportIdle : Prop :=
  ∀ (s t : State) (ev : List Event) (d : Word64) (a : Byte), Inv s → s.ph ≠ .idle → step s = .next t →
    t.trace = s.trace ++ ev → Event.resp .ok d a ∈ ev → s.ph = .final ∧ t.tpBusy = false ∧ t.tpTxBusy = false

/-! ### The transport -/

/-- TP's answers: `ACCEPTED` only with an idle transmitter, and then TP is busy with that submission; any other answer
leaves TP as it was; and every answer the rule allows is drawn by some draw (41_sequencer.md R124). -/
def Obligations.SubmissionAnswers : Prop :=
  (∀ (s t : State) (ev : List Event) (k : SubmitKind) (l : List Byte) (a : Answer),
    step s = .next t → t.trace = s.trace ++ ev → Event.sub k l a ∈ ev →
    (a = .accepted →
      s.tpTxBusy = false ∧ t.tpBusy = true ∧ t.tpTxBusy = true ∧ t.tpCur = some ⟨k, l⟩) ∧
    (a ≠ .accepted → t.tpBusy = s.tpBusy ∧ t.tpTxBusy = s.tpTxBusy ∧ t.tpCur = s.tpCur)) ∧
  (∀ (s : State) (a : Answer), s.ph = .start ∨ s.ph = .p2 → (a = .accepted → s.tpTxBusy = false) →
    ∃ d t k l ev, stepWith d s = .next t ∧ t.trace = s.trace ++ Event.sub k l a :: ev)

/-- TP's completion step: no longer busy, the notification delivered, and of a `WRRD` one byte captured for each byte
sent, into `RX[1..]` (41_sequencer.md R125). The notification is connected (70_reset_and_hazards.md R253). -/
def Obligations.CompletionCaptures : Prop :=
  ∀ s : State, s.draw.agent = .tp → s.tpBusy = true → s.tpTxBusy = false → s.notify = true →
    (∀ l : List Byte, s.tpCur = some ⟨.wr, l⟩ →
      step s = .next ({ s with tpBusy := false, done := true } : State).redraw) ∧
    (∀ l : List Byte, s.tpCur = some ⟨.wrrd, l⟩ → 1 ≤ l.length → l.length ≤ 4 →
      let c := s.draw.capture
      step s = .next ({ s with
        tpBusy := false
        done := true
        rx := { s0 := s.rx.s0
                s1 := c.c1
                s2 := if 2 ≤ l.length then c.c2 else s.rx.s2
                s3 := if 3 ≤ l.length then c.c3 else s.rx.s3
                s4 := if 4 ≤ l.length then c.c4 else s.rx.s4 }
        trace := s.trace ++ [.cap ([c.c1, c.c2, c.c3, c.c4].take l.length)] } : State).redraw)

/-- TP's transmitter-idle step, and the absence of a step where neither signal is up (41_sequencer.md R126). -/
def Obligations.TransmitterGoesIdle : Prop :=
  ∀ s : State, s.draw.agent = .tp →
    (s.tpTxBusy = true → step s = .next ({ s with tpTxBusy := false } : State).redraw) ∧
    (s.tpTxBusy = false → s.tpBusy = false → step s = .next s.redraw)

/-- An unconnected notification never reaches `DONE`: once 0, it stays 0 (70_reset_and_hazards.md section 2; that the
wiring is a bit of the state is the model's choice, log 10). -/
def Obligations.UnconnectedNotificationIsLost : Prop :=
  ∀ s t : State, s.notify = false → s.done = false → step s = .next t → t.done = false ∧ t.notify = false

/-! ### The host and the step -/

/-- HOST has no step while a transaction is in flight: its turn changes nothing, and no request is lost
(41_sequencer.md section 1; what `exec` answers then is the model's choice, log 12). -/
def Obligations.HostWaitsForReady : Prop :=
  ∀ s : State, s.ph ≠ .idle →
    (s.draw.agent = .host → step s = .next s.redraw) ∧
    (∀ r i, decode (.request r) = .ok i → exec i s = .refused .hostNotReady)

/-- A step runs the decoded instruction: HOST's next request, taken off its port, at IDLE; the command byte in `TX[0]`
at START (41_sequencer.md sections 1 and 4; the turn and the redraw are the model's, log 2). -/
def Obligations.StepRunsTheDecodedInstruction : Prop :=
  (∀ (s : State) (r : Request) (rest : List Request) (i : Instr), s.draw.agent = .host → s.ph = .idle →
    s.requests = r :: rest → decode (.request r) = .ok i →
    step s = thenRedraw (exec i { s with requests := rest })) ∧
  (∀ (s : State) (i : Instr), s.draw.agent = .seq → s.ph = .start → decode (.wire s.tx.s0) = .ok i →
    step s = thenRedraw (exec i s))

/-- No step ever stops the machine, in any state whatever: every turn of every agent has a next state (60_exceptions.md
section 1: "The block has no traps"). -/
def Obligations.EveryStepHasANextState : Prop :=
  ∀ s : State, ∃ t, step s = .next t

/-- Whatever error a step reports, the block is then at IDLE with `CS = 0` and the response registers hold the error's
code and zeros; the response of a success leaves it ready likewise (60_exceptions.md R221, R222, 10_state.md R26). -/
def Obligations.ResponsesLeaveTheBlockReady : Prop :=
  ∀ (s t : State) (ev : List Event) (e : Status) (d : Word64) (a : Byte), Inv s → step s = .next t →
    t.trace = s.trace ++ ev → Event.resp e d a ∈ ev →
    t.ph = .idle ∧ t.cs = false ∧ t.respValid = true ∧ t.respStatus = e ∧ t.respData = d ∧ t.respAux = a ∧
      (e ≠ .ok → d = 0#64 ∧ a = 0#8)

/-- `RESP_STATUS` is written by every `finish` and, but for reset, by nothing else; `RESP_VALID` stays 1 from there
until HOST issues the next transaction request, and a combinational request leaves it 1 (10_state.md R26). -/
def Obligations.StatusIsWrittenByFinishOnly : Prop :=
  ∀ s t : State, s.draw.agent ≠ .rst → step s = .next t →
    ((∃ ev d a, t.trace = s.trace ++ ev ++ [.resp t.respStatus d a] ∧ t.respData = d ∧ t.respAux = a ∧
        t.respValid = true ∧ t.ph = .idle) ∨
      ((∃ ev, t.trace = s.trace ++ ev ∧ ∀ e d a, Event.resp e d a ∉ ev) ∧
        t.respStatus = s.respStatus ∧ t.respData = s.respData ∧ t.respAux = s.respAux)) ∧
    (s.respValid = true → t.respValid = false → s.draw.agent = .host ∧ s.ph = .idle ∧ t.ph = .start)

/-! ### Reset -/

/-- `RST` writes the elements its rule lists, at any time, and power-on is such a reset (70_reset_and_hazards.md R250).
TP, its wiring, HOST and the trace but for a `CS-` keep theirs over `RST`. Nothing is said of `T_KIND`, `T_LEN`, `TX` and
`RX`, which are unspecified. -/
def Obligations.ResetWritesItsList : Prop :=
  (∀ s : State, s.draw.agent = .rst → ∃ t, step s = .next t ∧ atReset t ∧
    t.tpBusy = s.tpBusy ∧ t.tpTxBusy = s.tpTxBusy ∧ t.tpCur = s.tpCur ∧ t.notify = s.notify ∧
    t.requests = s.requests ∧ t.trace = s.trace ++ if s.cs then [.csDown] else []) ∧
  atReset State.reset

/-! ### Invariants -/

/-- Every step of every agent keeps the invariant. -/
def Obligations.StepKeepsTheInvariant : Prop :=
  ∀ s t : State, Inv s → step s = .next t → Inv t

/-- The invariant holds after reset. It does not rest on the unspecified elements, which it constrains only while a
transaction is in flight; it does rest on TP being idle there (log 9). -/
def Obligations.ResetMeetsTheInvariant : Prop := Inv State.reset

/-- Chip-select assertions and deassertions pair up (41_sequencer.md R128): a `CS+` comes only from HOST's issue of a
transaction request, `CS-` only from the step that finishes it or from reset, in between `CS` stays 1, and every
submission is made while it is 1. -/
def Obligations.ChipSelectIsPaired : Prop :=
  (∀ s t : State, chipSelectPaired s → step s = .next t → chipSelectPaired t) ∧
  (∀ s t : State, step s = .next t → s.cs = false → t.cs = true →
    s.draw.agent = .host ∧ s.ph = .idle ∧ t.ph = .start) ∧
  (∀ s t : State, Inv s → step s = .next t → s.cs = true → t.cs = false →
    t.ph = .idle ∧ (s.draw.agent = .rst ∨ t.respValid = true)) ∧
  (∀ (s t : State) (ev : List Event) (k : SubmitKind) (l : List Byte) (a : Answer), Inv s → step s = .next t →
    t.trace = s.trace ++ ev → Event.sub k l a ∈ ev → s.cs = true)

/-- A transaction ends within fifteen turns of one schedule: from every state of the invariant with the notification
connected, five rounds of SEQ, TP, TP bring the block to IDLE with `CS = 0`, whatever TP answers, whatever it captures,
bounded or unbounded waits (41_sequencer.md section 4, "Every transaction ends"). The machine does not enforce TP's
fairness (log 3), so the schedule here is one chosen; FairTransactionsEnd speaks of every fair run. -/
def Obligations.EveryTransactionEnds : Prop :=
  ∀ (s : State) (ds : List Draw), Inv s → s.notify = true → ds.map (·.agent) = fairRounds 5 →
    ∃ t, runWith ds s = some t ∧ t.ph = .idle ∧ t.cs = false

/-! ### The converter -/

/-- `DEC24` by its rule: operands, result, and no error (42_converter.md R170). -/
def Obligations.Dec24SignExtends : Prop :=
  ∀ (r : Request) (s : State), r.ctl.extractLsb' 28 4 = 0x6#4 → s.ph = .idle →
    let b1 := r.data.extractLsb' 16 8
    let b2 := r.data.extractLsb' 8 8
    let b3 := r.data.extractLsb' 0 8
    decode (.request r) = .ok (.dec24 b1 b2 b3) ∧
    exec (.dec24 b1 b2 b3) s = .next (responded .ok ((r.data.extractLsb' 0 24).signExtend 64) 0#8 s)

/-- The decoded value is the two's-complement reading of the three bytes, with the source's three points
(42_converter.md R171). -/
def Obligations.Dec24IsTwosComplement : Prop :=
  (∀ (b1 b2 b3 : Byte) (s t : State), exec (.dec24 b1 b2 b3) s = .next t →
    t.respData.toInt =
      (b1.toNat * 65536 + b2.toNat * 256 + b3.toNat : Int) - if b1.getLsbD 7 then 2 ^ 24 else 0) ∧
  (∀ s : State, s.ph = .idle →
    exec (.dec24 0x00#8 0x00#8 0x01#8) s = .next (responded .ok (BitVec.ofInt 64 1) 0#8 s) ∧
    exec (.dec24 0xFF#8 0xFF#8 0xFF#8) s = .next (responded .ok (BitVec.ofInt 64 (-1)) 0#8 s) ∧
    exec (.dec24 0x80#8 0x00#8 0x00#8) s = .next (responded .ok (BitVec.ofInt 64 (-8388608)) 0#8 s))

/-- `TOVOLT`: the code is `DATA[31:0]` in two's complement; multiply, round, divide, round; DecodeOutOfRange exactly for a
zero resolution, a non-finite full scale or an overflowing product (42_converter.md section 2). The sign handed to `rne`,
which fixes the sign of a zero, and the threshold from which a product overflows are the model's choice, presumed from
IEEE 754 (logs 15 and 16). What `rne` is, `RneRoundsToNearestEven` says. -/
def Obligations.TovoltMultipliesThenDivides : Prop :=
  ∀ (r : Request) (code : Word32) (s : State),
    r.ctl.extractLsb' 28 4 = 0x7#4 → r.data.extractLsb' 0 32 = code → s.ph = .idle →
    let fs := s.cfgFullScale
    let res := s.cfgResolution.toNat
    let t := rne (decide (code.toInt < 0) ^^ b64Sign fs) (code.toInt.natAbs * magNum fs) (magDen fs)
    decode (.request r) = .ok (.tovolt code) ∧
    (res ≠ 0 → b64Finite fs = true → b64Finite t = true →
      b64Finite (rne (b64Sign t) (magNum t) (magDen t * res)) = true ∧
      exec (.tovolt code) s =
        .next (responded .ok (rne (b64Sign t) (magNum t) (magDen t * res)) 0#8 s)) ∧
    (res = 0 ∨ b64Finite fs = false ∨ b64Finite t = false →
      exec (.tovolt code) s = .next (errored .decodeOutOfRange s))

/-- The source's properties of `toVoltage` under the reset configuration (42_converter.md R176): ±2^23 gives ±3.3, and
the code 0 a zero for every finite full scale and every non-zero resolution. -/
def Obligations.TovoltSourceProperties : Prop :=
  (∀ s : State, s.ph = .idle → s.cfgFullScale = 0x400A666666666666#64 → s.cfgResolution = 0x00800000#32 →
    exec (.tovolt 0x00800000#32) s = .next (responded .ok 0x400A666666666666#64 0#8 s) ∧
    exec (.tovolt 0xFF800000#32) s = .next (responded .ok 0xC00A666666666666#64 0#8 s)) ∧
  (∀ s : State, s.ph = .idle → b64Finite s.cfgFullScale = true → s.cfgResolution ≠ 0#32 →
    ∃ v, exec (.tovolt 0#32) s = .next (responded .ok v 0#8 s) ∧ b64Value v = 0) ∧
  (∀ s : State, s.ph = .idle → b64Finite s.cfgFullScale = false ∨ s.cfgResolution = 0#32 →
    exec (.tovolt 0#32) s = .next (errored .decodeOutOfRange s))

/-- `rne` gives a nearest binary64 value and, of two equally near, the even one; it is not finite exactly from the
threshold 2^1024 - 2^970 on (00_scope.md section 4; the threshold and a zero's sign are IEEE 754's, logs 15, 16). -/
def Obligations.RneRoundsToNearestEven : Prop :=
  ∀ (neg : Bool) (num den : Nat), 0 < den →
    let q : ℚ := (if neg then -1 else 1) * (num / den)
    let x := rne neg num den
    (b64Finite x = true →
      ∀ y : Word64, b64Finite y = true →
        |q - b64Value x| ≤ |q - b64Value y| ∧
        (|q - b64Value x| = |q - b64Value y| → b64Value y ≠ b64Value x → x.getLsbD 0 = false)) ∧
    (b64Finite x = false ↔ (2 ^ 1024 - 2 ^ 970 : ℚ) ≤ num / den) ∧
    b64Sign x = neg

/-- `DSPLIT` by its rule, in exact rational arithmetic: sign, integer part, fraction rounded half away from zero with
its carry, and the errors, the digits first (42_converter.md R180). -/
def Obligations.DsplitSplitsExactly : Prop :=
  ∀ (r : Request) (s : State), r.ctl.extractLsb' 28 4 = 0x8#4 → s.ph = .idle →
    let x := r.data
    let d := r.ctl.extractLsb' 16 4
    let m : ℚ := |b64Value x|
    let q : Int := ⌊(m - ⌊m⌋) * 10 ^ d.toNat + 1 / 2⌋
    let i : Int := if q = 10 ^ d.toNat then ⌊m⌋ + 1 else ⌊m⌋
    let f : Int := if q = 10 ^ d.toNat then 0 else q
    decode (.request r) = .ok (.dsplit x d) ∧
    (9 < d.toNat → exec (.dsplit x d) s = .next (errored .invalidLength s)) ∧
    (d.toNat ≤ 9 → b64Finite x = false → exec (.dsplit x d) s = .next (errored .decodeOutOfRange s)) ∧
    (d.toNat ≤ 9 → b64Finite x = true → 2 ^ 32 ≤ i →
      exec (.dsplit x d) s = .next (errored .decodeOutOfRange s)) ∧
    (d.toNat ≤ 9 → b64Finite x = true → i < 2 ^ 32 →
      exec (.dsplit x d) s =
        .next (responded .ok (BitVec.ofInt 32 i ++ BitVec.ofInt 32 f) (if b64Value x < 0 then 1#8 else 0#8) s))

/-- The fraction digits of a `DSPLIT` are fewer than ten to the digits, and the sign is one bit (42_converter.md
section 3, corner cases). -/
def Obligations.DsplitFractionFitsItsDigits : Prop :=
  ∀ (x : Word64) (d : BitVec 4) (s t : State), exec (.dsplit x d) s = .next t → t.respStatus = .ok →
    (t.respData.extractLsb' 0 32).toNat < 10 ^ d.toNat ∧ (t.respAux = 0#8 ∨ t.respAux = 1#8)

/-! ### Configuration and unassigned requests -/

/-- `SETCFG` by its rule: the register named, unchecked, or InvalidRegisterAddress and nothing written (43_config.md
R200). -/
def Obligations.SetcfgWritesOneRegister : Prop :=
  ∀ (r : Request) (s : State), r.ctl.extractLsb' 28 4 = 0x9#4 → s.ph = .idle →
    ∃ (idx : BitVec 4) (v : Word64), decode (.request r) = .ok (.setcfg idx v) ∧ idx = r.ctl.extractLsb' 24 4 ∧
      (idx = 0#4 → exec (.setcfg idx v) s = .next (responded .ok 0#64 0#8 { s with cfgFullScale := r.data })) ∧
      (idx = 1#4 → exec (.setcfg idx v) s =
        .next (responded .ok 0#64 0#8 { s with cfgResolution := r.data.extractLsb' 0 32 })) ∧
      (idx = 2#4 → exec (.setcfg idx v) s =
        .next (responded .ok 0#64 0#8 { s with cfgPollLimit := r.data.extractLsb' 0 32 })) ∧
      (3 ≤ idx.toNat → exec (.setcfg idx v) s = .next (errored .invalidRegisterAddress s))

/-- `GETCFG` by its rule (43_config.md R205). -/
def Obligations.GetcfgReadsOneRegister : Prop :=
  ∀ (r : Request) (s : State), r.ctl.extractLsb' 28 4 = 0xA#4 → s.ph = .idle →
    ∃ idx : BitVec 4, decode (.request r) = .ok (.getcfg idx) ∧ idx = r.ctl.extractLsb' 24 4 ∧
      (idx = 0#4 → exec (.getcfg idx) s = .next (responded .ok s.cfgFullScale 0#8 s)) ∧
      (idx = 1#4 → exec (.getcfg idx) s = .next (responded .ok (0#32 ++ s.cfgResolution) 0#8 s)) ∧
      (idx = 2#4 → exec (.getcfg idx) s = .next (responded .ok (0#32 ++ s.cfgPollLimit) 0#8 s)) ∧
      (3 ≤ idx.toNat → exec (.getcfg idx) s = .next (errored .invalidRegisterAddress s))

/-- A configuration register reads back what was written to it, and a write of one leaves the others (43_config.md
section on GETCFG, corner cases; 10_state.md section 4). -/
def Obligations.ConfigurationReadsBack : Prop :=
  ∀ (i j : BitVec 4) (v : Word64) (s t u w : State), i.toNat < 3 → j.toNat < 3 →
    exec (.setcfg i v) s = .next t → exec (.getcfg j) t = .next u → exec (.getcfg j) s = .next w →
    (i = j → u.respData = if i = 0#4 then v else (v.extractLsb' 0 32).setWidth 64) ∧
    (i ≠ j → u.respData = w.respData)

/-- The configuration changes only by a reset or by HOST's `SETCFG` at IDLE, so never while a transaction is in flight
(43_config.md, introduction; 70_reset_and_hazards.md section 3). -/
def Obligations.ConfigurationIsStable : Prop :=
  ∀ s t : State, step s = .next t → s.draw.agent ≠ .rst →
    (t.cfgFullScale = s.cfgFullScale ∧ t.cfgResolution = s.cfgResolution ∧ t.cfgPollLimit = s.cfgPollLimit) ∨
    (s.draw.agent = .host ∧ s.ph = .idle ∧
      ∃ r rest, s.requests = r :: rest ∧ r.ctl.extractLsb' 28 4 = 0x9#4)

/-- An unassigned OPC is a request with no operation: it finishes with UnknownRequest, status 0x9, and changes no other
state (43_config.md R210). -/
def Obligations.UnassignedCodesAreUnknown : Prop :=
  ∀ s : State, s.ph = .idle →
    (∀ i ∈ [Instr.unassigned0, .unassignedB, .unassignedC, .unassignedD, .unassignedE, .unassignedF],
      exec i s = .next (errored .unknownRequest s)) ∧
    (errored .unknownRequest s).respStatus.code = 0x9#4 ∧
    (∀ r : Request, r.ctl.extractLsb' 28 4 ∈ [0x0#4, 0xB#4, 0xC#4, 0xD#4, 0xE#4, 0xF#4] →
      ∃ i ∈ [Instr.unassigned0, .unassignedB, .unassignedC, .unassignedD, .unassignedE, .unassignedF],
        decode (.request r) = .ok i)

/-! ### Frames over the whole machine -/

/-- What every request leaves alone, whichever it is: `DONE`, the poll counter, the receive buffer, TP, its wiring, the
port, and the free values; a combinational request also `CS`, the latch and the transmit buffer; and every request but
`SETCFG` the configuration (41_sequencer.md sections 1 and 5, "Flags written"). -/
def Obligations.RequestFrame : Prop :=
  ∀ (r : Request) (i : Instr) (s t : State), decode (.request r) = .ok i → exec i s = .next t →
    t.done = s.done ∧ t.pollCnt = s.pollCnt ∧ t.rx = s.rx ∧ t.tpBusy = s.tpBusy ∧ t.tpTxBusy = s.tpTxBusy ∧
    t.tpCur = s.tpCur ∧ t.notify = s.notify ∧ t.requests = s.requests ∧ t.draw = s.draw ∧ t.tick = s.tick ∧
    (r.ctl.extractLsb' 28 4 ∉ [0x3#4, 0x4#4, 0x5#4] →
      t.ph = .idle ∧ t.cs = s.cs ∧ t.tKind = s.tKind ∧ t.tLen = s.tLen ∧ t.tx = s.tx) ∧
    (r.ctl.extractLsb' 28 4 ≠ 0x9#4 →
      t.cfgFullScale = s.cfgFullScale ∧ t.cfgResolution = s.cfgResolution ∧ t.cfgPollLimit = s.cfgPollLimit)

/-- What a command byte leaves alone: the latch, both buffers, the configuration, the wiring, the port and the free
values, whatever TP answers (41_sequencer.md section 4, phase START). -/
def Obligations.CommandByteFrame : Prop :=
  ∀ (b : Byte) (i : Instr) (s t : State), decode (.wire b) = .ok i → exec i s = .next t →
    t.tKind = s.tKind ∧ t.tLen = s.tLen ∧ t.tx = s.tx ∧ t.rx = s.rx ∧ t.cfgFullScale = s.cfgFullScale ∧
    t.cfgResolution = s.cfgResolution ∧ t.cfgPollLimit = s.cfgPollLimit ∧ t.notify = s.notify ∧
    t.requests = s.requests ∧ t.draw = s.draw ∧ t.tick = s.tick ∧ t.done = false

/-- But for reset, whose values there are unspecified: `RX` is written by TP's completion only, and slot 0 of it never
(10_state.md section 5); `TX` and the latch only by HOST's issue step at IDLE (10_state.md section 5). -/
def Obligations.BuffersHaveOneWriter : Prop :=
  ∀ s t : State, step s = .next t → s.draw.agent ≠ .rst →
    t.rx.s0 = s.rx.s0 ∧ (t.rx ≠ s.rx → s.draw.agent = .tp ∧ s.tpBusy = true ∧ s.tpTxBusy = false) ∧
    (t.tx ≠ s.tx ∨ t.tKind ≠ s.tKind ∨ t.tLen ≠ s.tLen → s.draw.agent = .host ∧ s.ph = .idle)

/-! ### Pseudo-requests -/

/-- The command surface expands as its table says (30_encoding.md R83). `READ` and `WRITE` of a register of the catalog
expand to a request that is accepted, of the register's width, which for each of the thirteen is the literal one; of a
reserved address, to one that finishes with InvalidRegisterAddress. -/
def Obligations.CommandsExpandToRequests : Prop :=
  (∀ (reg : BitVec 4) (v : Word32) (s : State), s.ph = .idle →
    ∃ (i j : Instr) (t u : State), expand (.read reg) = some [.request i] ∧ expand (.write reg v) = some [.request j] ∧
      exec i s = .next t ∧ exec j s = .next u ∧
      (∀ e, catalog reg = some e →
        (∃ len : BitVec 4, len.toNat = e.width / 8 + 1 ∧ i = .rdreg reg len) ∧
        (∃ (n : BitVec 4) (w : Word32), n.toNat = e.width / 8 ∧ w.toNat = v.toNat % 2 ^ e.width ∧ j = .wrreg reg n w) ∧
        t.ph = .start ∧ u.ph = .start) ∧
      (catalog reg = none →
        i = .rdreg reg 1#4 ∧ (∃ w : Word32, w.toNat = v.toNat % 2 ^ 8 ∧ j = .wrreg reg 1#4 w) ∧
        t = errored .invalidRegisterAddress s ∧ u = errored .invalidRegisterAddress s)) ∧
  (∀ reg : BitVec 4,
    [some 4, some 2, some 2, some 2, some 2, some 2, some 2, some 4, some 4, some 4, some 4, none, none, some 2, none,
      some 3][reg.toNat]? = some (fittingLength reg)) ∧
  expand .convert = some [.request (.fast .conversion)] ∧ expand .standby = some [.request (.fast .standby)] ∧
  expand .shutdown = some [.request (.fast .shutdown)] ∧
  expand .single =
    some [.request (.fast .conversion), .request (.rdreg 0x0#4 4#4), .decodeSample, .convertCode] ∧
  (∀ c ∈ [Command.scan, .default, .adc, .registers, .about], expand c = none)

/-- The data path of one sample (42_converter.md, section Laws, chaining): the answer that ends a four-byte read, ADCDATA's
among them, holds the three value bytes and is the operand of `DEC24`; its answer is the operand of `TOVOLT`, which runs
and so converts the two's-complement reading of the three bytes. `converted` rests on logs 15 and 16. -/
def Obligations.SamplesChain : Prop :=
  ∀ s t : State, s.draw.agent = .seq → s.ph = .final → s.done = true → s.tpBusy = false → s.tKind = .read →
    s.tLen = 4#3 → step s = .next t →
    let n := bytesValue [s.rx.s2, s.rx.s3, s.rx.s4]
    ∃ (u : State) (code : Word32), t.respStatus = .ok ∧ t.respData.toNat = n ∧
      exec (CommandStep.decodeSample.instr t) t = .next u ∧ u.respStatus = .ok ∧ u.respData.toInt = code.toInt ∧
      code.toInt = (n : Int) - (if s.rx.s2.getLsbD 7 then 2 ^ 24 else 0) ∧
      CommandStep.convertCode.instr u = .tovolt code ∧ exec (.tovolt code) u = .next (converted code u) ∧
      u.cfgFullScale = s.cfgFullScale ∧ u.cfgResolution = s.cfgResolution

/-! ### Whole transactions -/

/-- A register read, whole, issued at IDLE with an idle transport and its submissions accepted. Under every schedule without
a reset, wherever the block has finished this request and no wait timed out, the trace is exactly that of its rule, with
one `CS+` and one `CS-`, and the answer is the captured bytes but the first; and with the notification connected the
schedule HOST, SEQ, TP, SEQ, SEQ, TP, TP, SEQ gets there (41_sequencer.md section 5; section 6 on the one pair and the one
dropped byte). -/
def Obligations.RdregReadsARegister : Prop :=
  ∀ (s : State) (r : Request) (rest : List Request) (reg len : BitVec 4),
    s.ph = .idle → s.cs = false → s.tpBusy = false → s.tpTxBusy = false →
    s.requests = r :: rest → decode (.request r) = .ok (.rdreg reg len) →
    reg ∉ [0xB#4, 0xC#4, 0xE#4] → 1 ≤ len.toNat → len.toNat ≤ 4 →
    (∀ (ds : List Draw) (t : State), allAccepted ds → runWith ds s = some t → t.requests = rest → t.ph = .idle →
      t.respStatus ≠ .transportTimeout → ∃ d ∈ ds, readTransaction reg len d.capture rest s t) ∧
    (s.notify = true → ∀ (ds : List Draw) (c : Capture), allAccepted ds → (∀ d ∈ ds, d.capture = c) →
      ds.map (·.agent) = [.host, .seq, .tp, .seq, .seq, .tp, .tp, .seq] →
      ∃ t, runWith ds s = some t ∧ readTransaction reg len c rest s t)

/-- A register write, whole, likewise under every schedule: the write frame, then the payload bytes in one submission, most
significant first; and the schedule HOST, SEQ, TP, SEQ, SEQ, TP, SEQ, TP, SEQ gets there (41_sequencer.md section 5). -/
def Obligations.WrregWritesARegister : Prop :=
  ∀ (s : State) (r : Request) (rest : List Request) (reg len : BitVec 4) (value : Word32),
    s.ph = .idle → s.cs = false → s.tpBusy = false → s.tpTxBusy = false →
    s.requests = r :: rest → decode (.request r) = .ok (.wrreg reg len value) →
    reg ∉ [0xB#4, 0xC#4, 0xE#4] → 1 ≤ len.toNat → len.toNat ≤ 4 →
    ∃ l : List Byte, l.length = len.toNat ∧ bytesValue l = r.data.toNat % 2 ^ (8 * len.toNat) ∧
      (∀ (ds : List Draw) (t : State), allAccepted ds → runWith ds s = some t → t.requests = rest → t.ph = .idle →
        t.respStatus ≠ .transportTimeout → writeTransaction reg l rest s t) ∧
      (s.notify = true → ∀ ds : List Draw, allAccepted ds →
        ds.map (·.agent) = [.host, .seq, .tp, .seq, .seq, .tp, .seq, .tp, .seq] →
        ∃ t, runWith ds s = some t ∧ writeTransaction reg l rest s t)

/-- A fast command, whole, likewise under every schedule: its one byte and nothing captured, and no register of the block's
configuration changed; and the schedule HOST, SEQ, TP, TP, SEQ gets there (41_sequencer.md section 5). -/
def Obligations.FastSendsACommand : Prop :=
  ∀ (s : State) (r : Request) (rest : List Request) (cmd : FastCommand),
    s.ph = .idle → s.cs = false → s.tpBusy = false → s.tpTxBusy = false →
    s.requests = r :: rest → decode (.request r) = .ok (.fast cmd) →
    ∃ b : Byte, [0x68#8, 0x6C#8, 0x70#8, 0x78#8][(r.ctl.extractLsb' 14 2).toNat]? = some b ∧
      (∀ (ds : List Draw) (t : State), allAccepted ds → runWith ds s = some t → t.requests = rest → t.ph = .idle →
        t.respStatus ≠ .transportTimeout → fastTransaction b rest s t) ∧
      (s.notify = true → ∀ ds : List Draw, allAccepted ds →
        ds.map (·.agent) = [.host, .seq, .tp, .tp, .seq] →
        ∃ t, runWith ds s = some t ∧ fastTransaction b rest s t)

/-! ### The catalog -/

/-- The register catalog ROM holds the entries of its table (20_memory.md R51): name, width and access, the read and the
write frame that `ENCF` produces, and the fitting length, which `RDREG` accepts; a reserved address has no entry. A sanity
statement of a table. -/
def Obligations.CatalogHoldsItsTable : Prop :=
  ∀ s : State, s.ph = .idle →
    (∀ row ∈ [(0x0#4, "ADCDATA", 24, Access.readOnly, 0x41#64, 0x42#64, 4#4),
        (0x1#4, "CONFIG0", 8, .readWrite, 0x45#64, 0x46#64, 2#4), (0x2#4, "CONFIG1", 8, .readWrite, 0x49#64, 0x4A#64, 2#4),
        (0x3#4, "CONFIG2", 8, .readWrite, 0x4D#64, 0x4E#64, 2#4), (0x4#4, "CONFIG3", 8, .readWrite, 0x51#64, 0x52#64, 2#4),
        (0x5#4, "IRQ", 8, .readOnly, 0x55#64, 0x56#64, 2#4), (0x6#4, "MUX", 8, .readWrite, 0x59#64, 0x5A#64, 2#4),
        (0x7#4, "SCAN", 24, .readWrite, 0x5D#64, 0x5E#64, 4#4), (0x8#4, "TIMER", 24, .readWrite, 0x61#64, 0x62#64, 4#4),
        (0x9#4, "OFFSETCAL", 24, .readWrite, 0x65#64, 0x66#64, 4#4),
        (0xA#4, "GAINCAL", 24, .readWrite, 0x69#64, 0x6A#64, 4#4), (0xD#4, "LOCK", 8, .notGiven, 0x75#64, 0x76#64, 2#4),
        (0xF#4, "CRCCFG", 16, .notGiven, 0x7D#64, 0x7E#64, 3#4)],
      let (reg, name, width, access, readFrame, writeFrame, len) := row
      catalog reg = some ⟨name, width, access⟩ ∧ fittingLength reg = some len.toNat ∧
      exec (.encf reg 0b01#2 0b01#2) s = .next (responded .ok readFrame 0#8 s) ∧
      exec (.encf reg 0b01#2 0b10#2) s = .next (responded .ok writeFrame 0#8 s) ∧
      ∃ t, exec (.rdreg reg len) s = .next t ∧ t.ph = .start ∧ t.tx.s0.setWidth 64 = readFrame) ∧
    (∀ row ∈ [(0xB#4, 0x6D#64, 0x6E#64), (0xC#4, 0x71#64, 0x72#64), (0xE#4, 0x79#64, 0x7A#64)],
      let (reg, readFrame, writeFrame) := row
      catalog reg = none ∧ fittingLength reg = none ∧
      exec (.encf reg 0b01#2 0b01#2) s = .next (responded .ok readFrame 0#8 s) ∧
      exec (.encf reg 0b01#2 0b10#2) s = .next (responded .ok writeFrame 0#8 s))

/-! ### The transport over whole runs -/

/-- A submission may be accepted while its predecessor has not completed: the new one replaces it in `TP_CUR`, and when TP
has then moved twice, one completion has ended both. TP sets `DONE` and changes `RX` in its completion step only
(41_sequencer.md section 2, fairness and overlap). -/
def Obligations.OverlapsShareOneCompletion : Prop :=
  (∀ (s : State) (d d' d'' : Draw) (k : SubmitKind) (l : List Byte) (ev : List Event) (t : State),
    s.tpBusy = true → s.notify = true → stepWith d s = .next t → t.trace = s.trace ++ Event.sub k l .accepted :: ev →
    d'.agent = .tp → d''.agent = .tp →
    t.tpBusy = true ∧ t.tpCur = some ⟨k, l⟩ ∧ t.done = false ∧
    ∃ u v, stepWith d' t = .next u ∧ u.tpBusy = true ∧ u.done = false ∧
      stepWith d'' u = .next v ∧ v.tpBusy = false ∧ v.tpTxBusy = false ∧ v.done = true) ∧
  (∀ s t : State, s.draw.agent = .tp → step s = .next t →
    (t.done ≠ s.done ∨ t.rx ≠ s.rx → completionEnabled s = true) ∧ (s.done = true → t.done = true))

/-- In every run that is fair to TP, a busy transmitter goes idle, whatever the other agents do and whatever the state the
run starts in (41_sequencer.md section 2, fairness and overlap; fairness is a premise, log 3). -/
def Obligations.FairTransmittersGoIdle : Prop :=
  ∀ (ds : Nat → Draw) (r : Nat → State), IsRun ds r → FairToTp ds r →
    ∀ n, ∃ m, n ≤ m ∧ (r m).tpTxBusy = false

/-- Every transaction ends: in every run from a state of the invariant with the notification connected that is fair to TP
and to SEQ, the block comes to IDLE with `CS = 0` again and again, whatever TP answers and captures, bounded or unbounded
waits, with resets or without (41_sequencer.md section 4, "Every transaction ends"). Fairness is a premise (log 3): TP's
is the contract's, SEQ's is what a block that takes its enabled steps does. -/
def Obligations.FairTransactionsEnd : Prop :=
  ∀ (ds : Nat → Draw) (r : Nat → State), IsRun ds r → FairToTp ds r → WeaklyFair ds r .seq seqEnabled →
    Inv (r 0) → (r 0).notify = true →
    ∀ n, ∃ m, n ≤ m ∧ (r m).ph = .idle ∧ (r m).cs = false
end

