-- ==== Sys2Proof/Laws/Decode.lean ====
section
/-! SUPPORT. The fields of an encoded word are the fields it was built from. -/

namespace Sys2Proof

section Ctl

variable (opc reg : BitVec 4) (dev op : BitVec 2) (len : BitVec 4) (sel : BitVec 2)

@[simp] theorem ctlOpc_ctlWord : ctlOpc (ctlWord opc reg dev op len sel) = opc := by
  ext i hi
  simp only [ctlOpc, ctlWord, BitVec.getElem_extractLsb', BitVec.getLsbD_append]
  rw [if_neg (by omega), if_neg (by omega), if_neg (by omega), if_neg (by omega), if_neg (by omega),
    if_neg (by omega), BitVec.getLsbD_eq_getElem (by omega)]
  congr 1
  omega

@[simp] theorem ctlReg_ctlWord : ctlReg (ctlWord opc reg dev op len sel) = reg := by
  ext i hi
  simp only [ctlReg, ctlWord, BitVec.getElem_extractLsb', BitVec.getLsbD_append]
  rw [if_neg (by omega), if_neg (by omega), if_neg (by omega), if_neg (by omega), if_neg (by omega),
    if_pos (by omega), BitVec.getLsbD_eq_getElem (by omega)]
  congr 1
  omega

@[simp] theorem ctlDev_ctlWord : ctlDev (ctlWord opc reg dev op len sel) = dev := by
  ext i hi
  simp only [ctlDev, ctlWord, BitVec.getElem_extractLsb', BitVec.getLsbD_append]
  rw [if_neg (by omega), if_neg (by omega), if_neg (by omega), if_neg (by omega), if_pos (by omega),
    BitVec.getLsbD_eq_getElem (by omega)]
  congr 1
  omega

@[simp] theorem ctlOp_ctlWord : ctlOp (ctlWord opc reg dev op len sel) = op := by
  ext i hi
  simp only [ctlOp, ctlWord, BitVec.getElem_extractLsb', BitVec.getLsbD_append]
  rw [if_neg (by omega), if_neg (by omega), if_neg (by omega), if_pos (by omega),
    BitVec.getLsbD_eq_getElem (by omega)]
  congr 1
  omega

@[simp] theorem ctlLen_ctlWord : ctlLen (ctlWord opc reg dev op len sel) = len := by
  ext i hi
  simp only [ctlLen, ctlWord, BitVec.getElem_extractLsb', BitVec.getLsbD_append]
  rw [if_neg (by omega), if_neg (by omega), if_pos (by omega), BitVec.getLsbD_eq_getElem (by omega)]
  congr 1
  omega

@[simp] theorem ctlSel_ctlWord : ctlSel (ctlWord opc reg dev op len sel) = sel := by
  ext i hi
  simp only [ctlSel, ctlWord, BitVec.getElem_extractLsb', BitVec.getLsbD_append]
  rw [if_neg (by omega), if_pos (by omega), BitVec.getLsbD_eq_getElem (by omega)]
  congr 1
  omega

end Ctl

/-- The frame is the concatenation of its fields (40_codec.md R101). -/
theorem frame_eq_append (dev : BitVec 2) (reg : BitVec 4) (op : BitVec 2) : frame dev reg op = dev ++ reg ++ op := by
  revert dev reg op
  decide

@[simp] theorem frameDev_frame (dev : BitVec 2) (reg : BitVec 4) (op : BitVec 2) : frameDev (frame dev reg op) = dev := by
  revert dev reg op
  decide

@[simp] theorem frameReg_frame (dev : BitVec 2) (reg : BitVec 4) (op : BitVec 2) : frameReg (frame dev reg op) = reg := by
  revert dev reg op
  decide

@[simp] theorem frameOp_frame (dev : BitVec 2) (reg : BitVec 4) (op : BitVec 2) : frameOp (frame dev reg op) = op := by
  revert dev reg op
  decide

/-- A byte is the frame of its fields. -/
theorem frame_of_fields (b : Byte) : frame (frameDev b) (frameReg b) (frameOp b) = b := by
  revert b
  decide

/-- The three bytes of a `DEC24` operand stand where they were put (30_encoding.md R76). -/
theorem dec24_operand_bytes (b1 b2 b3 : Byte) :
    (0#40 ++ b1 ++ b2 ++ b3 : Word64).extractLsb' 16 8 = b1 ∧
    (0#40 ++ b1 ++ b2 ++ b3 : Word64).extractLsb' 8 8 = b2 ∧
    (0#40 ++ b1 ++ b2 ++ b3 : Word64).extractLsb' 0 8 = b3 := by
  refine ⟨?_, ?_, ?_⟩ <;> apply BitVec.eq_of_getLsbD_eq <;> intro i hi <;>
    simp only [BitVec.getLsbD_extractLsb', BitVec.getLsbD_append, hi, decide_true, Bool.true_and]
  · rw [if_neg (by omega), if_neg (by omega), if_pos (by omega)]
    congr 1
    omega
  · rw [if_neg (by omega), if_pos (by omega)]
    congr 1
    omega
  · rw [if_pos (by omega)]
    congr 1
    omega

@[simp] theorem fastOfSel_selOfFast (c : FastCommand) : fastOfSel (selOfFast c) = c := by
  cases c <;> rfl

end Sys2Proof
end

