-- ==== Sys2Proof/Laws/State.lean ====
section
/-! SUPPORT. One lemma per field per update of the state: what it holds after the update. -/

namespace Sys2Proof.Machine

variable (s : State)

/-! ### emit -/

@[simp] theorem State.emit_ph (e : Event) : (State.emit e s).ph = s.ph := rfl
@[simp] theorem State.emit_cs (e : Event) : (State.emit e s).cs = s.cs := rfl
@[simp] theorem State.emit_done (e : Event) : (State.emit e s).done = s.done := rfl
@[simp] theorem State.emit_pollCnt (e : Event) : (State.emit e s).pollCnt = s.pollCnt := rfl
@[simp] theorem State.emit_tKind (e : Event) : (State.emit e s).tKind = s.tKind := rfl
@[simp] theorem State.emit_tLen (e : Event) : (State.emit e s).tLen = s.tLen := rfl
@[simp] theorem State.emit_tx (e : Event) : (State.emit e s).tx = s.tx := rfl
@[simp] theorem State.emit_rx (e : Event) : (State.emit e s).rx = s.rx := rfl
@[simp] theorem State.emit_cfgFullScale (e : Event) : (State.emit e s).cfgFullScale = s.cfgFullScale := rfl
@[simp] theorem State.emit_cfgResolution (e : Event) : (State.emit e s).cfgResolution = s.cfgResolution := rfl
@[simp] theorem State.emit_cfgPollLimit (e : Event) : (State.emit e s).cfgPollLimit = s.cfgPollLimit := rfl
@[simp] theorem State.emit_respValid (e : Event) : (State.emit e s).respValid = s.respValid := rfl
@[simp] theorem State.emit_respStatus (e : Event) : (State.emit e s).respStatus = s.respStatus := rfl
@[simp] theorem State.emit_respData (e : Event) : (State.emit e s).respData = s.respData := rfl
@[simp] theorem State.emit_respAux (e : Event) : (State.emit e s).respAux = s.respAux := rfl
@[simp] theorem State.emit_tpBusy (e : Event) : (State.emit e s).tpBusy = s.tpBusy := rfl
@[simp] theorem State.emit_tpTxBusy (e : Event) : (State.emit e s).tpTxBusy = s.tpTxBusy := rfl
@[simp] theorem State.emit_tpCur (e : Event) : (State.emit e s).tpCur = s.tpCur := rfl
@[simp] theorem State.emit_notify (e : Event) : (State.emit e s).notify = s.notify := rfl
@[simp] theorem State.emit_requests (e : Event) : (State.emit e s).requests = s.requests := rfl
@[simp] theorem State.emit_draw (e : Event) : (State.emit e s).draw = s.draw := rfl
@[simp] theorem State.emit_tick (e : Event) : (State.emit e s).tick = s.tick := rfl
@[simp] theorem State.emit_trace (e : Event) : (State.emit e s).trace = s.trace ++ [e] := rfl

/-! ### finish -/

@[simp] theorem State.finish_ph (e : Status) (d : Word64) (a : Byte) : (State.finish e d a s).ph = .idle := rfl
@[simp] theorem State.finish_cs (e : Status) (d : Word64) (a : Byte) : (State.finish e d a s).cs = s.cs := rfl
@[simp] theorem State.finish_done (e : Status) (d : Word64) (a : Byte) : (State.finish e d a s).done = s.done := rfl
@[simp] theorem State.finish_pollCnt (e : Status) (d : Word64) (a : Byte) :
    (State.finish e d a s).pollCnt = s.pollCnt := rfl
@[simp] theorem State.finish_tKind (e : Status) (d : Word64) (a : Byte) :
    (State.finish e d a s).tKind = s.tKind := rfl
@[simp] theorem State.finish_tLen (e : Status) (d : Word64) (a : Byte) : (State.finish e d a s).tLen = s.tLen := rfl
@[simp] theorem State.finish_tx (e : Status) (d : Word64) (a : Byte) : (State.finish e d a s).tx = s.tx := rfl
@[simp] theorem State.finish_rx (e : Status) (d : Word64) (a : Byte) : (State.finish e d a s).rx = s.rx := rfl
@[simp] theorem State.finish_cfgFullScale (e : Status) (d : Word64) (a : Byte) :
    (State.finish e d a s).cfgFullScale = s.cfgFullScale := rfl
@[simp] theorem State.finish_cfgResolution (e : Status) (d : Word64) (a : Byte) :
    (State.finish e d a s).cfgResolution = s.cfgResolution := rfl
@[simp] theorem State.finish_cfgPollLimit (e : Status) (d : Word64) (a : Byte) :
    (State.finish e d a s).cfgPollLimit = s.cfgPollLimit := rfl
@[simp] theorem State.finish_respValid (e : Status) (d : Word64) (a : Byte) :
    (State.finish e d a s).respValid = true := rfl
@[simp] theorem State.finish_respStatus (e : Status) (d : Word64) (a : Byte) :
    (State.finish e d a s).respStatus = e := rfl
@[simp] theorem State.finish_respData (e : Status) (d : Word64) (a : Byte) :
    (State.finish e d a s).respData = d := rfl
@[simp] theorem State.finish_respAux (e : Status) (d : Word64) (a : Byte) : (State.finish e d a s).respAux = a := rfl
@[simp] theorem State.finish_tpBusy (e : Status) (d : Word64) (a : Byte) :
    (State.finish e d a s).tpBusy = s.tpBusy := rfl
@[simp] theorem State.finish_tpTxBusy (e : Status) (d : Word64) (a : Byte) :
    (State.finish e d a s).tpTxBusy = s.tpTxBusy := rfl
@[simp] theorem State.finish_tpCur (e : Status) (d : Word64) (a : Byte) :
    (State.finish e d a s).tpCur = s.tpCur := rfl
@[simp] theorem State.finish_notify (e : Status) (d : Word64) (a : Byte) :
    (State.finish e d a s).notify = s.notify := rfl
@[simp] theorem State.finish_requests (e : Status) (d : Word64) (a : Byte) :
    (State.finish e d a s).requests = s.requests := rfl
@[simp] theorem State.finish_draw (e : Status) (d : Word64) (a : Byte) : (State.finish e d a s).draw = s.draw := rfl
@[simp] theorem State.finish_tick (e : Status) (d : Word64) (a : Byte) : (State.finish e d a s).tick = s.tick := rfl
@[simp] theorem State.finish_trace (e : Status) (d : Word64) (a : Byte) :
    (State.finish e d a s).trace = s.trace ++ [.resp e d a] := rfl

/-! ### setCs -/

@[simp] theorem State.setCs_ph (b : Bool) : (State.setCs b s).ph = s.ph := rfl
@[simp] theorem State.setCs_cs (b : Bool) : (State.setCs b s).cs = b := rfl
@[simp] theorem State.setCs_done (b : Bool) : (State.setCs b s).done = s.done := rfl
@[simp] theorem State.setCs_pollCnt (b : Bool) : (State.setCs b s).pollCnt = s.pollCnt := rfl
@[simp] theorem State.setCs_tKind (b : Bool) : (State.setCs b s).tKind = s.tKind := rfl
@[simp] theorem State.setCs_tLen (b : Bool) : (State.setCs b s).tLen = s.tLen := rfl
@[simp] theorem State.setCs_tx (b : Bool) : (State.setCs b s).tx = s.tx := rfl
@[simp] theorem State.setCs_rx (b : Bool) : (State.setCs b s).rx = s.rx := rfl
@[simp] theorem State.setCs_cfgFullScale (b : Bool) : (State.setCs b s).cfgFullScale = s.cfgFullScale := rfl
@[simp] theorem State.setCs_cfgResolution (b : Bool) : (State.setCs b s).cfgResolution = s.cfgResolution := rfl
@[simp] theorem State.setCs_cfgPollLimit (b : Bool) : (State.setCs b s).cfgPollLimit = s.cfgPollLimit := rfl
@[simp] theorem State.setCs_respValid (b : Bool) : (State.setCs b s).respValid = s.respValid := rfl
@[simp] theorem State.setCs_respStatus (b : Bool) : (State.setCs b s).respStatus = s.respStatus := rfl
@[simp] theorem State.setCs_respData (b : Bool) : (State.setCs b s).respData = s.respData := rfl
@[simp] theorem State.setCs_respAux (b : Bool) : (State.setCs b s).respAux = s.respAux := rfl
@[simp] theorem State.setCs_tpBusy (b : Bool) : (State.setCs b s).tpBusy = s.tpBusy := rfl
@[simp] theorem State.setCs_tpTxBusy (b : Bool) : (State.setCs b s).tpTxBusy = s.tpTxBusy := rfl
@[simp] theorem State.setCs_tpCur (b : Bool) : (State.setCs b s).tpCur = s.tpCur := rfl
@[simp] theorem State.setCs_notify (b : Bool) : (State.setCs b s).notify = s.notify := rfl
@[simp] theorem State.setCs_requests (b : Bool) : (State.setCs b s).requests = s.requests := rfl
@[simp] theorem State.setCs_draw (b : Bool) : (State.setCs b s).draw = s.draw := rfl
@[simp] theorem State.setCs_tick (b : Bool) : (State.setCs b s).tick = s.tick := rfl
@[simp] theorem State.setCs_trace (b : Bool) : (State.setCs b s).trace = s.trace ++ csEvents s.cs b := rfl

/-! ### takeError -/

@[simp] theorem State.takeError_ph (e : Status) : (State.takeError e s).ph = .idle := rfl
@[simp] theorem State.takeError_cs (e : Status) :
    (State.takeError e s).cs = (if s.ph = .idle then s.cs else false) := rfl
@[simp] theorem State.takeError_done (e : Status) : (State.takeError e s).done = s.done := rfl
@[simp] theorem State.takeError_pollCnt (e : Status) : (State.takeError e s).pollCnt = s.pollCnt := rfl
@[simp] theorem State.takeError_tKind (e : Status) : (State.takeError e s).tKind = s.tKind := rfl
@[simp] theorem State.takeError_tLen (e : Status) : (State.takeError e s).tLen = s.tLen := rfl
@[simp] theorem State.takeError_tx (e : Status) : (State.takeError e s).tx = s.tx := rfl
@[simp] theorem State.takeError_rx (e : Status) : (State.takeError e s).rx = s.rx := rfl
@[simp] theorem State.takeError_cfgFullScale (e : Status) : (State.takeError e s).cfgFullScale = s.cfgFullScale := rfl
@[simp] theorem State.takeError_cfgResolution (e : Status) :
    (State.takeError e s).cfgResolution = s.cfgResolution := rfl
@[simp] theorem State.takeError_cfgPollLimit (e : Status) : (State.takeError e s).cfgPollLimit = s.cfgPollLimit := rfl
@[simp] theorem State.takeError_respValid (e : Status) : (State.takeError e s).respValid = true := rfl
@[simp] theorem State.takeError_respStatus (e : Status) : (State.takeError e s).respStatus = e := rfl
@[simp] theorem State.takeError_respData (e : Status) : (State.takeError e s).respData = 0#64 := rfl
@[simp] theorem State.takeError_respAux (e : Status) : (State.takeError e s).respAux = 0#8 := rfl
@[simp] theorem State.takeError_tpBusy (e : Status) : (State.takeError e s).tpBusy = s.tpBusy := rfl
@[simp] theorem State.takeError_tpTxBusy (e : Status) : (State.takeError e s).tpTxBusy = s.tpTxBusy := rfl
@[simp] theorem State.takeError_tpCur (e : Status) : (State.takeError e s).tpCur = s.tpCur := rfl
@[simp] theorem State.takeError_notify (e : Status) : (State.takeError e s).notify = s.notify := rfl
@[simp] theorem State.takeError_requests (e : Status) : (State.takeError e s).requests = s.requests := rfl
@[simp] theorem State.takeError_draw (e : Status) : (State.takeError e s).draw = s.draw := rfl
@[simp] theorem State.takeError_tick (e : Status) : (State.takeError e s).tick = s.tick := rfl
@[simp] theorem State.takeError_trace (e : Status) :
    (State.takeError e s).trace = s.trace ++ csEvents s.cs (if s.ph = .idle then s.cs else false) ++ [.resp e 0#64 0#8] := rfl

/-! ### acceptTransaction -/

@[simp] theorem State.acceptTransaction_ph (k : TransferKind) (n : BitVec 3) (l : List Byte) :
    (State.acceptTransaction k n l s).ph = .start := rfl
@[simp] theorem State.acceptTransaction_cs (k : TransferKind) (n : BitVec 3) (l : List Byte) :
    (State.acceptTransaction k n l s).cs = true := rfl
@[simp] theorem State.acceptTransaction_done (k : TransferKind) (n : BitVec 3) (l : List Byte) :
    (State.acceptTransaction k n l s).done = s.done := rfl
@[simp] theorem State.acceptTransaction_pollCnt (k : TransferKind) (n : BitVec 3) (l : List Byte) :
    (State.acceptTransaction k n l s).pollCnt = s.pollCnt := rfl
@[simp] theorem State.acceptTransaction_tKind (k : TransferKind) (n : BitVec 3) (l : List Byte) :
    (State.acceptTransaction k n l s).tKind = k := rfl
@[simp] theorem State.acceptTransaction_tLen (k : TransferKind) (n : BitVec 3) (l : List Byte) :
    (State.acceptTransaction k n l s).tLen = n := rfl
@[simp] theorem State.acceptTransaction_tx (k : TransferKind) (n : BitVec 3) (l : List Byte) :
    (State.acceptTransaction k n l s).tx = writeSlots s.tx l := rfl
@[simp] theorem State.acceptTransaction_rx (k : TransferKind) (n : BitVec 3) (l : List Byte) :
    (State.acceptTransaction k n l s).rx = s.rx := rfl
@[simp] theorem State.acceptTransaction_cfgFullScale (k : TransferKind) (n : BitVec 3) (l : List Byte) :
    (State.acceptTransaction k n l s).cfgFullScale = s.cfgFullScale := rfl
@[simp] theorem State.acceptTransaction_cfgResolution (k : TransferKind) (n : BitVec 3) (l : List Byte) :
    (State.acceptTransaction k n l s).cfgResolution = s.cfgResolution := rfl
@[simp] theorem State.acceptTransaction_cfgPollLimit (k : TransferKind) (n : BitVec 3) (l : List Byte) :
    (State.acceptTransaction k n l s).cfgPollLimit = s.cfgPollLimit := rfl
@[simp] theorem State.acceptTransaction_respValid (k : TransferKind) (n : BitVec 3) (l : List Byte) :
    (State.acceptTransaction k n l s).respValid = false := rfl
@[simp] theorem State.acceptTransaction_respStatus (k : TransferKind) (n : BitVec 3) (l : List Byte) :
    (State.acceptTransaction k n l s).respStatus = s.respStatus := rfl
@[simp] theorem State.acceptTransaction_respData (k : TransferKind) (n : BitVec 3) (l : List Byte) :
    (State.acceptTransaction k n l s).respData = s.respData := rfl
@[simp] theorem State.acceptTransaction_respAux (k : TransferKind) (n : BitVec 3) (l : List Byte) :
    (State.acceptTransaction k n l s).respAux = s.respAux := rfl
@[simp] theorem State.acceptTransaction_tpBusy (k : TransferKind) (n : BitVec 3) (l : List Byte) :
    (State.acceptTransaction k n l s).tpBusy = s.tpBusy := rfl
@[simp] theorem State.acceptTransaction_tpTxBusy (k : TransferKind) (n : BitVec 3) (l : List Byte) :
    (State.acceptTransaction k n l s).tpTxBusy = s.tpTxBusy := rfl
@[simp] theorem State.acceptTransaction_tpCur (k : TransferKind) (n : BitVec 3) (l : List Byte) :
    (State.acceptTransaction k n l s).tpCur = s.tpCur := rfl
@[simp] theorem State.acceptTransaction_notify (k : TransferKind) (n : BitVec 3) (l : List Byte) :
    (State.acceptTransaction k n l s).notify = s.notify := rfl
@[simp] theorem State.acceptTransaction_requests (k : TransferKind) (n : BitVec 3) (l : List Byte) :
    (State.acceptTransaction k n l s).requests = s.requests := rfl
@[simp] theorem State.acceptTransaction_draw (k : TransferKind) (n : BitVec 3) (l : List Byte) :
    (State.acceptTransaction k n l s).draw = s.draw := rfl
@[simp] theorem State.acceptTransaction_tick (k : TransferKind) (n : BitVec 3) (l : List Byte) :
    (State.acceptTransaction k n l s).tick = s.tick := rfl
@[simp] theorem State.acceptTransaction_trace (k : TransferKind) (n : BitVec 3) (l : List Byte) :
    (State.acceptTransaction k n l s).trace = s.trace ++ csEvents s.cs true := rfl

/-! ### submit -/

@[simp] theorem State.submit_ph (k : SubmitKind) (l : List Byte) (a : Answer) :
    (State.submit k l a s).ph = s.ph := rfl
@[simp] theorem State.submit_cs (k : SubmitKind) (l : List Byte) (a : Answer) :
    (State.submit k l a s).cs = s.cs := rfl
@[simp] theorem State.submit_done (k : SubmitKind) (l : List Byte) (a : Answer) :
    (State.submit k l a s).done = s.done := rfl
@[simp] theorem State.submit_pollCnt (k : SubmitKind) (l : List Byte) (a : Answer) :
    (State.submit k l a s).pollCnt = s.pollCnt := rfl
@[simp] theorem State.submit_tKind (k : SubmitKind) (l : List Byte) (a : Answer) :
    (State.submit k l a s).tKind = s.tKind := rfl
@[simp] theorem State.submit_tLen (k : SubmitKind) (l : List Byte) (a : Answer) :
    (State.submit k l a s).tLen = s.tLen := rfl
@[simp] theorem State.submit_tx (k : SubmitKind) (l : List Byte) (a : Answer) :
    (State.submit k l a s).tx = s.tx := rfl
@[simp] theorem State.submit_rx (k : SubmitKind) (l : List Byte) (a : Answer) :
    (State.submit k l a s).rx = s.rx := rfl
@[simp] theorem State.submit_cfgFullScale (k : SubmitKind) (l : List Byte) (a : Answer) :
    (State.submit k l a s).cfgFullScale = s.cfgFullScale := rfl
@[simp] theorem State.submit_cfgResolution (k : SubmitKind) (l : List Byte) (a : Answer) :
    (State.submit k l a s).cfgResolution = s.cfgResolution := rfl
@[simp] theorem State.submit_cfgPollLimit (k : SubmitKind) (l : List Byte) (a : Answer) :
    (State.submit k l a s).cfgPollLimit = s.cfgPollLimit := rfl
@[simp] theorem State.submit_respValid (k : SubmitKind) (l : List Byte) (a : Answer) :
    (State.submit k l a s).respValid = s.respValid := rfl
@[simp] theorem State.submit_respStatus (k : SubmitKind) (l : List Byte) (a : Answer) :
    (State.submit k l a s).respStatus = s.respStatus := rfl
@[simp] theorem State.submit_respData (k : SubmitKind) (l : List Byte) (a : Answer) :
    (State.submit k l a s).respData = s.respData := rfl
@[simp] theorem State.submit_respAux (k : SubmitKind) (l : List Byte) (a : Answer) :
    (State.submit k l a s).respAux = s.respAux := rfl
@[simp] theorem State.submit_tpBusy (k : SubmitKind) (l : List Byte) (a : Answer) :
    (State.submit k l a s).tpBusy = (if a = .accepted then true else s.tpBusy) := rfl
@[simp] theorem State.submit_tpTxBusy (k : SubmitKind) (l : List Byte) (a : Answer) :
    (State.submit k l a s).tpTxBusy = (if a = .accepted then true else s.tpTxBusy) := rfl
@[simp] theorem State.submit_tpCur (k : SubmitKind) (l : List Byte) (a : Answer) :
    (State.submit k l a s).tpCur = (if a = .accepted then some ⟨k, l⟩ else s.tpCur) := rfl
@[simp] theorem State.submit_notify (k : SubmitKind) (l : List Byte) (a : Answer) :
    (State.submit k l a s).notify = s.notify := rfl
@[simp] theorem State.submit_requests (k : SubmitKind) (l : List Byte) (a : Answer) :
    (State.submit k l a s).requests = s.requests := rfl
@[simp] theorem State.submit_draw (k : SubmitKind) (l : List Byte) (a : Answer) :
    (State.submit k l a s).draw = s.draw := rfl
@[simp] theorem State.submit_tick (k : SubmitKind) (l : List Byte) (a : Answer) :
    (State.submit k l a s).tick = s.tick := rfl
@[simp] theorem State.submit_trace (k : SubmitKind) (l : List Byte) (a : Answer) :
    (State.submit k l a s).trace = s.trace ++ [.sub k l a] := rfl

/-! ### rstMove -/

@[simp] theorem State.rstMove_ph : (s.rstMove).ph = .idle := rfl
@[simp] theorem State.rstMove_cs : (s.rstMove).cs = false := rfl
@[simp] theorem State.rstMove_done : (s.rstMove).done = false := rfl
@[simp] theorem State.rstMove_pollCnt : (s.rstMove).pollCnt = 0#32 := rfl
@[simp] theorem State.rstMove_tKind : (s.rstMove).tKind = s.draw.resetKind := rfl
@[simp] theorem State.rstMove_tLen : (s.rstMove).tLen = s.draw.resetLen := rfl
@[simp] theorem State.rstMove_tx : (s.rstMove).tx = s.draw.resetTx := rfl
@[simp] theorem State.rstMove_rx : (s.rstMove).rx = s.draw.resetRx := rfl
@[simp] theorem State.rstMove_cfgFullScale : (s.rstMove).cfgFullScale = Config.fullScaleReset := rfl
@[simp] theorem State.rstMove_cfgResolution : (s.rstMove).cfgResolution = Config.resolutionReset := rfl
@[simp] theorem State.rstMove_cfgPollLimit : (s.rstMove).cfgPollLimit = Config.pollLimitReset := rfl
@[simp] theorem State.rstMove_respValid : (s.rstMove).respValid = false := rfl
@[simp] theorem State.rstMove_respStatus : (s.rstMove).respStatus = .ok := rfl
@[simp] theorem State.rstMove_respData : (s.rstMove).respData = 0#64 := rfl
@[simp] theorem State.rstMove_respAux : (s.rstMove).respAux = 0#8 := rfl
@[simp] theorem State.rstMove_tpBusy : (s.rstMove).tpBusy = s.tpBusy := rfl
@[simp] theorem State.rstMove_tpTxBusy : (s.rstMove).tpTxBusy = s.tpTxBusy := rfl
@[simp] theorem State.rstMove_tpCur : (s.rstMove).tpCur = s.tpCur := rfl
@[simp] theorem State.rstMove_notify : (s.rstMove).notify = s.notify := rfl
@[simp] theorem State.rstMove_requests : (s.rstMove).requests = s.requests := rfl
@[simp] theorem State.rstMove_draw : (s.rstMove).draw = s.draw := rfl
@[simp] theorem State.rstMove_tick : (s.rstMove).tick = s.tick := rfl
@[simp] theorem State.rstMove_trace : (s.rstMove).trace = s.trace ++ csEvents s.cs false := rfl

/-! ### takeRequest -/

@[simp] theorem State.takeRequest_ph : (s.takeRequest).ph = s.ph := rfl
@[simp] theorem State.takeRequest_cs : (s.takeRequest).cs = s.cs := rfl
@[simp] theorem State.takeRequest_done : (s.takeRequest).done = s.done := rfl
@[simp] theorem State.takeRequest_pollCnt : (s.takeRequest).pollCnt = s.pollCnt := rfl
@[simp] theorem State.takeRequest_tKind : (s.takeRequest).tKind = s.tKind := rfl
@[simp] theorem State.takeRequest_tLen : (s.takeRequest).tLen = s.tLen := rfl
@[simp] theorem State.takeRequest_tx : (s.takeRequest).tx = s.tx := rfl
@[simp] theorem State.takeRequest_rx : (s.takeRequest).rx = s.rx := rfl
@[simp] theorem State.takeRequest_cfgFullScale : (s.takeRequest).cfgFullScale = s.cfgFullScale := rfl
@[simp] theorem State.takeRequest_cfgResolution : (s.takeRequest).cfgResolution = s.cfgResolution := rfl
@[simp] theorem State.takeRequest_cfgPollLimit : (s.takeRequest).cfgPollLimit = s.cfgPollLimit := rfl
@[simp] theorem State.takeRequest_respValid : (s.takeRequest).respValid = s.respValid := rfl
@[simp] theorem State.takeRequest_respStatus : (s.takeRequest).respStatus = s.respStatus := rfl
@[simp] theorem State.takeRequest_respData : (s.takeRequest).respData = s.respData := rfl
@[simp] theorem State.takeRequest_respAux : (s.takeRequest).respAux = s.respAux := rfl
@[simp] theorem State.takeRequest_tpBusy : (s.takeRequest).tpBusy = s.tpBusy := rfl
@[simp] theorem State.takeRequest_tpTxBusy : (s.takeRequest).tpTxBusy = s.tpTxBusy := rfl
@[simp] theorem State.takeRequest_tpCur : (s.takeRequest).tpCur = s.tpCur := rfl
@[simp] theorem State.takeRequest_notify : (s.takeRequest).notify = s.notify := rfl
@[simp] theorem State.takeRequest_requests :
    (s.takeRequest).requests = (if s.draw.agent = .host then s.requests.tail else s.requests) := rfl
@[simp] theorem State.takeRequest_draw : (s.takeRequest).draw = s.draw := rfl
@[simp] theorem State.takeRequest_tick : (s.takeRequest).tick = s.tick := rfl
@[simp] theorem State.takeRequest_trace : (s.takeRequest).trace = s.trace := rfl

/-! ### redraw -/

@[simp] theorem State.redraw_ph : (s.redraw).ph = s.ph := rfl
@[simp] theorem State.redraw_cs : (s.redraw).cs = s.cs := rfl
@[simp] theorem State.redraw_done : (s.redraw).done = s.done := rfl
@[simp] theorem State.redraw_pollCnt : (s.redraw).pollCnt = s.pollCnt := rfl
@[simp] theorem State.redraw_tKind : (s.redraw).tKind = s.tKind := rfl
@[simp] theorem State.redraw_tLen : (s.redraw).tLen = s.tLen := rfl
@[simp] theorem State.redraw_tx : (s.redraw).tx = s.tx := rfl
@[simp] theorem State.redraw_rx : (s.redraw).rx = s.rx := rfl
@[simp] theorem State.redraw_cfgFullScale : (s.redraw).cfgFullScale = s.cfgFullScale := rfl
@[simp] theorem State.redraw_cfgResolution : (s.redraw).cfgResolution = s.cfgResolution := rfl
@[simp] theorem State.redraw_cfgPollLimit : (s.redraw).cfgPollLimit = s.cfgPollLimit := rfl
@[simp] theorem State.redraw_respValid : (s.redraw).respValid = s.respValid := rfl
@[simp] theorem State.redraw_respStatus : (s.redraw).respStatus = s.respStatus := rfl
@[simp] theorem State.redraw_respData : (s.redraw).respData = s.respData := rfl
@[simp] theorem State.redraw_respAux : (s.redraw).respAux = s.respAux := rfl
@[simp] theorem State.redraw_tpBusy : (s.redraw).tpBusy = s.tpBusy := rfl
@[simp] theorem State.redraw_tpTxBusy : (s.redraw).tpTxBusy = s.tpTxBusy := rfl
@[simp] theorem State.redraw_tpCur : (s.redraw).tpCur = s.tpCur := rfl
@[simp] theorem State.redraw_notify : (s.redraw).notify = s.notify := rfl
@[simp] theorem State.redraw_requests : (s.redraw).requests = s.requests := rfl
@[simp] theorem State.redraw_draw : (s.redraw).draw = Config.draws s.tick := rfl
@[simp] theorem State.redraw_tick : (s.redraw).tick = s.tick + 1 := rfl
@[simp] theorem State.redraw_trace : (s.redraw).trace = s.trace := rfl

end Sys2Proof.Machine
end

