-- ==== Sys2Proof/Laws/Ops.lean ====
section
/-! SUPPORT. Everything each shared operation can do, said once: proofs cite these lemmas instead of unfolding the
operations. -/

namespace Sys2Proof.Machine

variable (s : State)

/-! ### Chip-select, responses and errors -/

@[simp] theorem csEvents_false (b : Bool) : csEvents b false = if b then [.csDown] else [] := by
  cases b <;> rfl

@[simp] theorem csEvents_true (b : Bool) : csEvents b true = if b then [] else [.csUp] := by
  cases b <;> rfl

@[simp] theorem csEvents_self (b : Bool) : csEvents b b = [] := by
  cases b <;> rfl

theorem finish_eq_responded (e : Status) (d : Word64) (a : Byte) : State.finish e d a s = responded e d a s := rfl

theorem setCs_false_eq_deselected : State.setCs false s = deselected s := by
  simp [State.setCs, deselected]

theorem setCs_self : State.setCs s.cs s = s := by
  simp [State.setCs]

theorem takeError_at_idle (e : Status) (h : s.ph = .idle) : State.takeError e s = errored e s := by
  simp [State.takeError, h, setCs_self, finish_eq_responded, errored]

theorem takeError_in_flight (e : Status) (h : s.ph ≠ .idle) : State.takeError e s = errored e (deselected s) := by
  simp [State.takeError, h, setCs_false_eq_deselected, finish_eq_responded, errored]

theorem acceptTransaction_eq_accepted (k : TransferKind) (n : BitVec 3) (l : List Byte) :
    State.acceptTransaction k n l s = accepted k n (writeSlots s.tx l) s := by
  simp [State.acceptTransaction, State.setCs, accepted]

/-! ### Issuing -/

/-- A request's step exists exactly at IDLE. -/
theorem issue_next_iff (t u : State) : s.issue t = .next u ↔ s.ph = .idle ∧ t = u := by
  by_cases h : s.ph = .idle <;> simp [State.issue, h]

@[simp] theorem issue_at_idle (t : State) (h : s.ph = .idle) : s.issue t = .next t := by
  simp [State.issue, h]

/-- A command byte's step exists exactly at START with that byte in `TX[0]`. -/
theorem sendCommand_next_iff (b : Byte) (u : State) :
    s.sendCommand b = .next u ↔ (s.ph = .start ∧ s.tx.s0 = b) ∧ s.seqStart = u := by
  by_cases h : s.ph = .start ∧ s.tx.s0 = b <;> simp [State.sendCommand, h]

/-! ### Submissions and waits -/

/-- `ACCEPTED` needs an idle transmitter. -/
theorem tpAnswer_accepted (h : s.tpAnswer = .accepted) : s.tpTxBusy = false := by
  unfold State.tpAnswer at h
  split at h
  · cases h
  · cases h
  · split at h
    · split at h <;> cases h
    · simp_all

theorem tpAnswer_of_idle (h : s.tpTxBusy = false) : s.tpAnswer = s.draw.answer := by
  unfold State.tpAnswer
  cases s.draw.answer <;> simp [h]

theorem submit_eq_submitted (k : SubmitKind) (l : List Byte) (a : Answer) :
    State.submit k l a { s with done := false } = submitted k l a s := by
  cases a <;> simp [State.submit, submitted, State.emit]

@[simp] theorem submitted_ph (k : SubmitKind) (l : List Byte) (a : Answer) : (submitted k l a s).ph = s.ph := by
  cases a <;> rfl

/-- A submission of a transaction in flight goes on, or ends it with the answer's error. -/
theorem submitPhase_eq_afterAnswer (k : SubmitKind) (l : List Byte) (p : Phase) (h : s.ph ≠ .idle) :
    State.submitPhase k l p s = afterAnswer k l p s.tpAnswer s := by
  unfold State.submitPhase afterAnswer
  cases s.tpAnswer <;> simp only [submit_eq_submitted] <;> rw [takeError_in_flight] <;> simpa using h

/-- A wait at a false condition holds, counts a poll, or times out. -/
theorem pollOrHold_cases :
    (s.cfgPollLimit = 0#32 ∧ s.pollOrHold = s) ∨
    (s.cfgPollLimit ≠ 0#32 ∧ s.pollCnt.toNat + 1 < s.cfgPollLimit.toNat ∧
      s.pollOrHold = { s with pollCnt := s.pollCnt + 1#32 }) ∨
    (s.cfgPollLimit ≠ 0#32 ∧ s.cfgPollLimit.toNat ≤ s.pollCnt.toNat + 1 ∧
      s.pollOrHold = State.takeError .transportTimeout { s with pollCnt := s.pollCnt + 1#32 }) := by
  unfold State.pollOrHold
  split
  · exact .inl ⟨‹_›, rfl⟩
  · split
    · exact .inr (.inr ⟨‹_›, ‹_›, rfl⟩)
    · exact .inr (.inl ⟨‹_›, by omega, rfl⟩)

/-! ### The transport -/

/-- TP's turn: the transmitter-idle step, the completion step, or nothing. -/
theorem tpMove_cases :
    (s.tpTxBusy = true ∧ s.tpMove = { s with tpTxBusy := false }) ∨
    (s.tpTxBusy = false ∧ s.tpBusy = true ∧ s.tpMove = s.tpComplete) ∨
    (s.tpTxBusy = false ∧ s.tpBusy = false ∧ s.tpMove = s) := by
  unfold State.tpMove
  cases s.tpTxBusy <;> cases s.tpBusy <;> simp

/-- The completion step changes `TP_BUSY`, `DONE`, `RX` and the trace only. -/
theorem tpComplete_eq :
    s.tpComplete = { s with
      tpBusy := false
      done := s.done || s.notify
      rx := s.tpComplete.rx
      trace := s.tpComplete.trace } := by
  unfold State.tpComplete
  split <;> rfl

/-! ### Steps, agent by agent -/

theorem step_of_fetch {f : Fetched} {i : Instr} (hf : s.fetch = some f) (hd : decode f = .ok i) :
    step s = thenRedraw (exec i s.takeRequest) := by
  simp [step, hf, hd]

theorem step_of_no_fetch (hf : s.fetch = none) : step s = .next s.agentMove.redraw := by
  simp [step, hf]

/-- A step that has a next state is an execution of what was fetched, the sending of an undecodable byte, or the
agent's own move. -/
theorem step_cases {t : State} (h : step s = .next t) :
    (∃ f i u, s.fetch = some f ∧ decode f = .ok i ∧ exec i s.takeRequest = .next u ∧ t = u.redraw) ∨
    (∃ f e, s.fetch = some f ∧ decode f = .error e ∧ t = s.sendUndecoded.redraw) ∨
    (s.fetch = none ∧ t = s.agentMove.redraw) := by
  unfold step at h
  split at h
  · rename_i f hf
    split at h
    · rename_i i hi
      cases hx : exec i s.takeRequest with
      | next u =>
        rw [hx] at h
        exact .inl ⟨f, i, u, hf, hi, hx, by simpa [thenRedraw] using h.symm⟩
      | fault r => rw [hx] at h; cases h
      | refused r => rw [hx] at h; cases h
    · exact .inr (.inl ⟨f, _, hf, ‹_›, by simpa using h.symm⟩)
  · exact .inr (.inr ⟨‹_›, by simpa using h.symm⟩)

end Sys2Proof.Machine
end

