-- ==== Sys2Proof/Laws/PerInstr.lean ====
section
/-! SUPPORT. Per instruction: its encoding lies in its own row of spec/opcode_table.json. -/

namespace Sys2Proof.Laws.TableRow

/-- The encoded instruction has its row's width, and its bits under the row's mask are the row's pattern. -/
def Statement (i : Instr) : Prop :=
  tableWidth (encode i) = (tableRow i).nbits ∧ tableBits (encode i) &&& (tableRow i).mask = (tableRow i).pattern

/-- The bits of a CTL word under the mask of OPC. -/
theorem ctlWord_and_mask (opc reg : BitVec 4) (dev op : BitVec 2) (len : BitVec 4) (sel : BitVec 2) :
    (ctlWord opc reg dev op len sel).toNat &&& 0xF0000000 = opc.toNat * 2 ^ 28 := by
  have h : ctlWord opc reg dev op len sel &&& (0xF#4 ++ 0#28) = (opc ++ 0#28 : Word32) := by
    apply BitVec.eq_of_getLsbD_eq
    intro i hi
    simp only [ctlWord, BitVec.getLsbD_and, BitVec.getLsbD_append]
    by_cases hlt : i < 28
    · simp [hlt]
    · rw [if_neg (by omega), if_neg (by omega), if_neg (by omega), if_neg (by omega), if_neg (by omega),
        if_neg (by omega), if_neg hlt, if_neg hlt]
      have h1 : (0xF#4).getLsbD (i - 28) = true := by
        obtain h | h | h | h : i - 28 = 0 ∨ i - 28 = 1 ∨ i - 28 = 2 ∨ i - 28 = 3 := by omega
        all_goals rw [h]; decide
      rw [h1, Bool.and_true]
      congr 1
  have h' := congrArg BitVec.toNat h
  rw [BitVec.toNat_and] at h'
  refine h'.trans ?_
  rw [show ((opc ++ 0#28 : Word32).toNat) = _ from BitVec.toNat_append opc 0#28]
  simp [Nat.shiftLeft_eq]

theorem encf (reg : BitVec 4) (dev op : BitVec 2) : Statement (.encf reg dev op) :=
  ⟨rfl, ctlWord_and_mask 1 reg dev op 0 0⟩

theorem decf (byte : Byte) : Statement (.decf byte) := ⟨rfl, ctlWord_and_mask 2 0 0 0 0 0⟩

theorem rdreg (reg len : BitVec 4) : Statement (.rdreg reg len) := ⟨rfl, ctlWord_and_mask 3 reg 0 0 len 0⟩

theorem wrreg (reg len : BitVec 4) (value : Word32) : Statement (.wrreg reg len value) :=
  ⟨rfl, ctlWord_and_mask 4 reg 0 0 len 0⟩

theorem fast (cmd : FastCommand) : Statement (.fast cmd) := ⟨rfl, ctlWord_and_mask 5 0 0 0 0 (selOfFast cmd)⟩

theorem dec24 (b1 b2 b3 : Byte) : Statement (.dec24 b1 b2 b3) := ⟨rfl, ctlWord_and_mask 6 0 0 0 0 0⟩

theorem tovolt (code : Word32) : Statement (.tovolt code) := ⟨rfl, ctlWord_and_mask 7 0 0 0 0 0⟩

theorem dsplit (voltage : Word64) (digits : BitVec 4) : Statement (.dsplit voltage digits) :=
  ⟨rfl, ctlWord_and_mask 8 0 0 0 digits 0⟩

theorem setcfg (idx : BitVec 4) (value : Word64) : Statement (.setcfg idx value) :=
  ⟨rfl, ctlWord_and_mask 9 idx 0 0 0 0⟩

theorem getcfg (idx : BitVec 4) : Statement (.getcfg idx) := ⟨rfl, ctlWord_and_mask 10 idx 0 0 0 0⟩

theorem unassigned0 : Statement .unassigned0 := ⟨rfl, ctlWord_and_mask 0 0 0 0 0 0⟩

theorem unassignedB : Statement .unassignedB := ⟨rfl, ctlWord_and_mask 11 0 0 0 0 0⟩

theorem unassignedC : Statement .unassignedC := ⟨rfl, ctlWord_and_mask 12 0 0 0 0 0⟩

theorem unassignedD : Statement .unassignedD := ⟨rfl, ctlWord_and_mask 13 0 0 0 0 0⟩

theorem unassignedE : Statement .unassignedE := ⟨rfl, ctlWord_and_mask 14 0 0 0 0 0⟩

theorem unassignedF : Statement .unassignedF := ⟨rfl, ctlWord_and_mask 15 0 0 0 0 0⟩

theorem readFrame (reg : BitVec 4) : Statement (.readFrame reg) := ⟨rfl, by revert reg; decide⟩

theorem writeFrame (reg : BitVec 4) : Statement (.writeFrame reg) := ⟨rfl, by revert reg; decide⟩

theorem fastConversion : Statement .fastConversion := ⟨rfl, by decide⟩

theorem fastStandby : Statement .fastStandby := ⟨rfl, by decide⟩

theorem fastShutdown : Statement .fastShutdown := ⟨rfl, by decide⟩

theorem fastFullReset : Statement .fastFullReset := ⟨rfl, by decide⟩

end Sys2Proof.Laws.TableRow
end

