-- ==== Sys2Proof/Laws/Step.lean ====
section
/-! SUPPORT. What a step can do, said once: each agent's step, the effects of a request, and the inversion of a step
into its agent's effect. Invariants and frames are derived from these. -/

namespace Sys2Proof.Machine

variable (s : State)

/-! ### Each agent's step -/

/-- The command byte due at START executes as the START step. -/
theorem exec_due_byte {i : Instr} (hs : s.ph = .start) (hd : decode (.wire s.tx.s0) = .ok i) :
    exec i s = .next s.seqStart := by
  have hb := frame_of_fields s.tx.s0
  have hsend : ∀ b, s.tx.s0 = b → s.sendCommand b = .next s.seqStart := fun b h =>
    (sendCommand_next_iff s b _).2 ⟨⟨hs, h⟩, rfl⟩
  simp only [decode, decodeWire] at hd
  split_ifs at hd with h1 h2 h3 h4 h5 h6 h7 <;> simp only [Except.ok.injEq] at hd <;> subst hd
  · exact hsend _ (by rw [not_not.mp h1, h2] at hb; exact hb.symm)
  · exact hsend _ (by rw [not_not.mp h1, h3] at hb; exact hb.symm)
  · exact hsend _ h4
  · exact hsend _ h5
  · exact hsend _ h6
  · exact hsend _ h7

/-- SEQ's turn is its phase's step, at START too. -/
theorem step_seq (ha : s.draw.agent = .seq) : step s = .next s.seqMove.redraw := by
  by_cases hs : s.ph = .start
  · have hf : s.fetch = some (.wire s.tx.s0) := by simp [State.fetch, ha, hs]
    have ht : s.takeRequest = s := by simp [State.takeRequest, ha]
    have hm : s.seqMove = s.seqStart := by simp [State.seqMove, hs]
    cases hd : decode (.wire s.tx.s0) with
    | error e => simp [step, hf, hd, hm, State.sendUndecoded]
    | ok i => rw [step_of_fetch s hf hd, ht, exec_due_byte s hs hd, hm]; rfl
  · rw [step_of_no_fetch s (by simp [State.fetch, ha, hs])]
    simp [State.agentMove, ha]

theorem step_tp (ha : s.draw.agent = .tp) : step s = .next s.tpMove.redraw := by
  rw [step_of_no_fetch s (by simp [State.fetch, ha])]
  simp [State.agentMove, ha]

theorem step_rst (ha : s.draw.agent = .rst) : step s = .next s.rstMove.redraw := by
  rw [step_of_no_fetch s (by simp [State.fetch, ha])]
  simp [State.agentMove, ha]

theorem step_host_waits (ha : s.draw.agent = .host) (h : s.ph ≠ .idle ∨ s.requests = []) :
    step s = .next s.redraw := by
  rw [step_of_no_fetch s (by rcases h with h | h <;> simp [State.fetch, ha, h])]
  simp [State.agentMove, ha]

theorem step_host (ha : s.draw.agent = .host) (hs : s.ph = .idle) {r : Request} {rest : List Request}
    (hr : s.requests = r :: rest) :
    step s = thenRedraw (exec (decodeRequest r) { s with requests := rest }) := by
  rw [step_of_fetch s (f := .request r) (i := decodeRequest r) (by simp [State.fetch, ha, hs, hr]) rfl]
  simp [State.takeRequest, ha, hr]

/-- SEQ's turn at a wait whose condition is false. -/
theorem pollOrHold_eq_heldOrPolled (h : s.ph ≠ .idle) : s.pollOrHold = heldOrPolled s := by
  unfold heldOrPolled
  rcases pollOrHold_cases s with ⟨h0, he⟩ | ⟨h0, hlt, he⟩ | ⟨h0, hle, he⟩
  · simp [h0, he]
  · simp [h0, hlt, he]
  · rw [he, if_neg h0, if_neg (by omega), takeError_in_flight _ _ (by simpa using h)]

/-! ### What a request can do -/

/-- The effect of a request: a response over at most a change of configuration, or an accepted transaction whose latch
is legal. -/
inductive RequestEffect (s : State) : State → Prop where
  | responds (s' : State) (e : Status) (d : Word64) (a : Byte)
      (hcfg : s' = s ∨
        ∃ x y z, s' = { s with cfgFullScale := x, cfgResolution := y, cfgPollLimit := z })
      (hzero : e ≠ .ok → d = 0#64 ∧ a = 0#8) : RequestEffect s (responded e d a s')
  | accepts (k : TransferKind) (n : BitVec 3) (tx : Buffer) (hlen : 1 ≤ n.toNat ∧ n.toNat ≤ 4)
      (hcmd : tx.s0 ∈ commandBytes ∧ kindOfCommand tx.s0 = k)
      (hfill : k = .read → ∀ b ∈ phase2Bytes tx n, b = 0x00#8) : RequestEffect s (accepted k n tx s)

theorem readFrame_isCommand (reg : BitVec 4) (h : reserved reg = false) :
    frame Config.deviceAddress reg opRead ∈ commandBytes ∧
      kindOfCommand (frame Config.deviceAddress reg opRead) = .read := by
  revert reg
  decide

theorem writeFrame_isCommand (reg : BitVec 4) (h : reserved reg = false) :
    frame Config.deviceAddress reg opWrite ∈ commandBytes ∧
      kindOfCommand (frame Config.deviceAddress reg opWrite) = .write := by
  revert reg
  decide

theorem fastByte_isCommand (c : FastCommand) :
    fastByte c ∈ commandBytes ∧ kindOfCommand (fastByte c) = .fast := by
  cases c <;> decide

theorem legalLength_cases {len : BitVec 4} (h : legalLength len = true) :
    len = 1#4 ∨ len = 2#4 ∨ len = 3#4 ∨ len = 4#4 := by
  revert len
  decide

theorem legalLength_latched {len : BitVec 4} (h : legalLength len = true) :
    1 ≤ (len.setWidth 3).toNat ∧ (len.setWidth 3).toNat ≤ 4 := by
  revert len
  decide

/-- The phase-2 bytes of a latched read are fill bytes. -/
theorem fill_bytes_latched (b : Buffer) (f : Byte) {len : BitVec 4} (h : legalLength len = true) :
    ∀ x ∈ phase2Bytes (writeSlots b (f :: List.replicate len.toNat Config.fillByte)) (len.setWidth 3),
      x = 0x00#8 := by
  rcases legalLength_cases h with rfl | rfl | rfl | rfl <;>
    simp [phase2Bytes, writeSlots, List.replicate, Config.fillByte]

theorem requestEffect_of_error (e : Status) (hs : s.ph = .idle) : RequestEffect s (State.takeError e s) := by
  rw [takeError_at_idle s e hs]
  exact .responds s e _ _ (.inl rfl) (by simp)

theorem requestEffect_of_transfer (k : TransferKind) (reg len : BitVec 4) (l : List Byte) (hs : s.ph = .idle)
    (hok : reserved reg = false → legalLength len = true →
      RequestEffect s (State.acceptTransaction k (len.setWidth 3) l s)) :
    RequestEffect s (s.issueTransfer k reg len l) := by
  unfold State.issueTransfer transferError
  split_ifs with h1 h2
  · exact requestEffect_of_error s _ hs
  · exact hok (by simpa using h1) h2
  · exact requestEffect_of_error s _ hs

/-- The inversion of every request that runs. -/
theorem request_cases {t : State} {r : Request} (hs : s.ph = .idle) (h : exec (decodeRequest r) s = .next t) :
    RequestEffect s t := by
  have herr := fun e => requestEffect_of_error s e hs
  have hok : ∀ d a, RequestEffect s (State.finish .ok d a s) := fun d a =>
    .responds s .ok d a (.inl rfl) (by simp)
  have hrange : ∀ o, RequestEffect s (s.finishInRange o) := by
    intro o
    unfold State.finishInRange
    split
    · exact hok _ _
    · exact herr _
  have hcodec : ∀ dev op d, RequestEffect s (s.codecResult dev op d) := by
    intro dev op d
    unfold State.codecResult
    split
    · exact herr _
    · exact hok _ _
  unfold decodeRequest at h
  split at h <;>
    simp only [exec, execUnassigned0, execUnassignedB, execUnassignedC, execUnassignedD, execUnassignedE,
      execUnassignedF, State.unknownRequest, execEncf, execDecf, execRdreg, execWrreg, execFast, execDec24,
      execTovolt, execDsplit, execSetcfg, execGetcfg, issue_next_iff] at h <;>
    obtain ⟨-, rfl⟩ := h
  any_goals exact herr _
  any_goals exact hcodec _ _ _
  any_goals exact hok _ _
  any_goals exact hrange _
  · refine requestEffect_of_transfer s _ _ _ _ hs fun h1 h2 => ?_
    rw [acceptTransaction_eq_accepted]
    exact .accepts _ _ _ (legalLength_latched h2) (by simpa [writeSlots] using readFrame_isCommand _ h1)
      fun _ => fill_bytes_latched _ _ h2
  · refine requestEffect_of_transfer s _ _ _ _ hs fun h1 h2 => ?_
    rw [acceptTransaction_eq_accepted]
    exact .accepts _ _ _ (legalLength_latched h2) (by simpa [writeSlots] using writeFrame_isCommand _ h1)
      (by simp)
  · rw [acceptTransaction_eq_accepted]
    exact .accepts _ _ _ (by decide) (by simpa [writeSlots] using fastByte_isCommand _) (by simp)
  · split
    · exact herr _
    · exact hrange _
  · split
    · rename_i u hu
      refine .responds u _ _ _ (.inr ?_) (by simp)
      unfold State.writeConfig at hu
      split_ifs at hu <;> simp only [Option.some.injEq] at hu <;> subst hu <;> exact ⟨_, _, _, rfl⟩
    · exact herr _
  · split
    · exact hok _ _
    · exact herr _

/-! ### The inversion of a step -/

/-- The effect of one step, before the redraw: nothing, a request of HOST, or the move of SEQ, TP or RST. -/
inductive StepEffect (s : State) : State → Prop where
  | waits (ha : s.draw.agent = .host) : StepEffect s s
  | issues (r : Request) (rest : List Request) (u : State) (ha : s.draw.agent = .host) (hs : s.ph = .idle)
      (hr : s.requests = r :: rest) (hx : exec (decodeRequest r) { s with requests := rest } = .next u)
      (he : RequestEffect { s with requests := rest } u) : StepEffect s u
  | sequences (ha : s.draw.agent = .seq) : StepEffect s s.seqMove
  | transports (ha : s.draw.agent = .tp) : StepEffect s s.tpMove
  | resets (ha : s.draw.agent = .rst) : StepEffect s s.rstMove

/-- A step is its agent's effect and a redraw. -/
theorem step_effect {t : State} (h : step s = .next t) : ∃ u, t = u.redraw ∧ StepEffect s u := by
  cases ha : s.draw.agent with
  | seq =>
    rw [step_seq s ha] at h
    exact ⟨_, by simpa using h.symm, .sequences ha⟩
  | tp =>
    rw [step_tp s ha] at h
    exact ⟨_, by simpa using h.symm, .transports ha⟩
  | rst =>
    rw [step_rst s ha] at h
    exact ⟨_, by simpa using h.symm, .resets ha⟩
  | host =>
    by_cases hs : s.ph = .idle
    · cases hr : s.requests with
      | nil =>
        rw [step_host_waits s ha (.inr hr)] at h
        exact ⟨_, by simpa using h.symm, .waits ha⟩
      | cons r rest =>
        rw [step_host s ha hs hr] at h
        cases hx : exec (decodeRequest r) { s with requests := rest } with
        | next u =>
          rw [hx] at h
          exact ⟨u, by simpa [thenRedraw] using h.symm,
            .issues r rest u ha hs hr hx (request_cases _ (by exact hs) hx)⟩
        | fault f => rw [hx] at h; cases h
        | refused f => rw [hx] at h; cases h
    · rw [step_host_waits s ha (.inl hs)] at h
      exact ⟨_, by simpa using h.symm, .waits ha⟩

end Sys2Proof.Machine
end

