-- ==== Sys2Proof/Laws/Runs.lean ====
section
/-! SUPPORT. Runs, said once: a step with given free values is an agent's move, a finite run is one step and the rest, and
what every step keeps holds along every run, finite or infinite. -/

namespace Sys2Proof.Machine

variable (s : State) (d : Draw)

/-! ### One step with given free values -/

@[simp] theorem stepWith_own_draw : stepWith s.draw s = step s := rfl

theorem stepWith_seq (ha : d.agent = .seq) : stepWith d s = .next ({ s with draw := d } : State).seqMove.redraw :=
  step_seq _ ha

theorem stepWith_tp (ha : d.agent = .tp) : stepWith d s = .next ({ s with draw := d } : State).tpMove.redraw :=
  step_tp _ ha

theorem stepWith_rst (ha : d.agent = .rst) : stepWith d s = .next ({ s with draw := d } : State).rstMove.redraw :=
  step_rst _ ha

theorem stepWith_host_waits (ha : d.agent = .host) (h : s.ph ≠ .idle ∨ s.requests = []) :
    stepWith d s = .next ({ s with draw := d } : State).redraw :=
  step_host_waits _ ha h

/-- A step with given free values is its agent's effect and a redraw. -/
theorem stepWith_effect {t : State} (h : stepWith d s = .next t) :
    ∃ u, t = u.redraw ∧ StepEffect { s with draw := d } u :=
  step_effect _ h

/-! ### Finite runs -/

@[simp] theorem runWith_nil : runWith [] s = some s := rfl

theorem runWith_cons_iff (ds : List Draw) (t : State) :
    runWith (d :: ds) s = some t ↔ ∃ u, stepWith d s = .next u ∧ runWith ds u = some t := by
  cases h : stepWith d s <;> simp [runWith, h]

theorem runWith_append_iff (ds es : List Draw) (t : State) :
    runWith (ds ++ es) s = some t ↔ ∃ u, runWith ds s = some u ∧ runWith es u = some t := by
  induction ds generalizing s with
  | nil => simp
  | cons d ds ih =>
    simp only [List.cons_append, runWith_cons_iff, ih]
    constructor
    · rintro ⟨u, hu, v, hv, ht⟩
      exact ⟨v, ⟨u, hu, hv⟩, ht⟩
    · rintro ⟨v, ⟨u, hu, hv⟩, ht⟩
      exact ⟨u, hu, v, hv, ht⟩

/-- What every step under the draws keeps holds at the end of the run. -/
theorem runWith_keeps {P : State → Prop} (ds : List Draw)
    (hstep : ∀ d ∈ ds, ∀ u v, P u → stepWith d u = .next v → P v) {t : State} (hs : P s) (h : runWith ds s = some t) :
    P t := by
  induction ds generalizing s with
  | nil =>
    cases h
    exact hs
  | cons d ds ih =>
    obtain ⟨u, hu, ht⟩ := (runWith_cons_iff s d ds t).1 h
    exact ih u (fun e he => hstep e (List.mem_cons_of_mem _ he)) (hstep d List.mem_cons_self _ _ hs hu) ht

/-! ### Infinite runs -/

/-- What every step keeps holds along an infinite run. -/
theorem isRun_keeps {P : State → Prop} {ds : Nat → Draw} {r : Nat → State} (hr : IsRun ds r)
    (hstep : ∀ d u v, P u → stepWith d u = .next v → P v) (h0 : P (r 0)) (n : Nat) : P (r n) := by
  induction n with
  | zero => exact h0
  | succ n ih => exact hstep _ _ _ ih (hr n)

end Sys2Proof.Machine
end

