-- ==== Sys2Proof/Tests/Slice0.lean ====
section
/-! SUPPORT. Tests. Expected results come from spec/95_test_vectors.md and the tables of spec/, or are worked by hand
from a rule; each test names its source. The last part shows, for every statement with hypotheses, a state and
operands that meet them. -/

namespace Sys2Proof.Tests

open Sys2Proof.Machine

/-! ### Small states -/

/-- A draw with the given mover and answer. -/
def draw (a : Agent) (ans : Answer) : Draw :=
  { agent := a, answer := ans, denial := .busy, capture := ⟨0xA5#8, 0x12#8, 0x34#8, 0x56#8⟩, resetKind := .fast,
    resetLen := 7#3, resetTx := zeroBuffer, resetRx := zeroBuffer }

/-- After reset, HOST to move. -/
def idle : State := { State.reset with draw := draw .host .accepted }

/-- In a transaction at the given phase, with a command byte, a mover and an answer. -/
def inFlight (p : Phase) (k : TransferKind) (b : Byte) (a : Agent) (ans : Answer) : State :=
  { State.reset with
    ph := p, cs := true, tKind := k, tLen := 4#3, tx := ⟨b, 0#8, 0#8, 0#8, 0#8⟩,
    rx := ⟨0#8, 0xA5#8, 0x12#8, 0x34#8, 0x56#8⟩, draw := draw a ans }

/-- The response of a step that finishes a request: code, data, aux. -/
def answer : Host.Outcome State Fault Refusal → Option (BitVec 4 × Word64 × Byte)
  | .next t => if t.respValid then some (t.respStatus.code, t.respData, t.respAux) else none
  | .fault _ => none
  | .refused _ => none

/-- The response to one request issued in a state. -/
def ask (ctl : Word32) (data : Word64) (s : State) : Option (BitVec 4 × Word64 × Byte) :=
  answer (step { s with requests := [⟨ctl, data⟩] })

/-- A field of the state one step leads to. -/
def next (f : State → α) (s : State) : Option α :=
  match step s with
  | .next t => some (f t)
  | .fault _ => none
  | .refused _ => none

/-- A field of the state one execution leads to. -/
def done (f : State → α) (i : Instr) (s : State) : Option α :=
  match exec i s with
  | .next t => some (f t)
  | .fault _ => none
  | .refused _ => none

/-! ### Ill-formed terms are refused by the check -/

theorem test_wrreg_value_too_wide : ¬ WellFormed (.wrreg 0x4#4 1#4 0x100#32) := by decide
theorem test_wrreg_value_unused : ¬ WellFormed (.wrreg 0x4#4 5#4 1#32) := by decide
theorem test_setcfg_value_too_wide : ¬ WellFormed (.setcfg 1#4 0x100000000#64) := by decide
theorem test_setcfg_value_unused : ¬ WellFormed (.setcfg 3#4 5#64) := by decide
theorem test_readFrame_reserved : ¬ WellFormed (.readFrame 0xB#4) := by decide
theorem test_writeFrame_reserved : ¬ WellFormed (.writeFrame 0xE#4) := by decide

/-! ### Every constructor's decoding, from words written out from 30_encoding.md R70, R72, R75, R80 -/

/-- `0001 0100 01 10 0000 00 0…`: OPC 1, REG 4, DEV 1, OP 2. -/
theorem test_decode_encf : decode (.request ⟨0b00010100011000000000000000000000#32, 0#64⟩) =
    .ok (.encf 0x4#4 0b01#2 0b10#2) := rfl

/-- OPC 2; DATA[7:0] = 0x41, the bits above it set. -/
theorem test_decode_decf : decode (.request ⟨0b00100000000000000000000000000000#32, 0xFFFFFFFFFFFFFF41#64⟩) =
    .ok (.decf 0x41#8) := rfl

/-- OPC 3, REG 0xF, LEN 3. -/
theorem test_decode_rdreg : decode (.request ⟨0b00111111000000110000000000000000#32, 0#64⟩) =
    .ok (.rdreg 0xF#4 3#4) := rfl

/-- OPC 4, REG 4, LEN 1; DATA[63:8] set and ignored. -/
theorem test_decode_wrreg : decode (.request ⟨0b01000100000000010000000000000000#32, 0xFFFFFFFFFFFFFFC0#64⟩) =
    .ok (.wrreg 0x4#4 1#4 0xC0#32) := rfl

/-- OPC 5, SEL 3; REG, LEN and the reserved bits set and ignored. -/
theorem test_decode_fast : decode (.request ⟨0b01011111000011111111111111111111#32, 0xFFFFFFFFFFFFFFFF#64⟩) =
    .ok (.fast .fullReset) := rfl

/-- OPC 6; DATA[63:24] set and ignored. -/
theorem test_decode_dec24 : decode (.request ⟨0b01100000000000000000000000000000#32, 0xFFFFFFFFFF123456#64⟩) =
    .ok (.dec24 0x12#8 0x34#8 0x56#8) := rfl

/-- OPC 7; DATA[63:32] set and ignored. -/
theorem test_decode_tovolt : decode (.request ⟨0b01110000000000000000000000000000#32, 0xFFFFFFFFFFFFFFFE#64⟩) =
    .ok (.tovolt 0xFFFFFFFE#32) := rfl

/-- OPC 8, LEN 9. -/
theorem test_decode_dsplit : decode (.request ⟨0b10000000000010010000000000000000#32, 0x400A666666666666#64⟩) =
    .ok (.dsplit 0x400A666666666666#64 9#4) := rfl

/-- OPC 9, REG 1; DATA[63:32] set and ignored. -/
theorem test_decode_setcfg : decode (.request ⟨0b10010001000000000000000000000000#32, 0x1234567800400000#64⟩) =
    .ok (.setcfg 1#4 0x00400000#64) := rfl

/-- OPC 0xA, REG 2. -/
theorem test_decode_getcfg : decode (.request ⟨0b10100010000000000000000000000000#32, 0#64⟩) =
    .ok (.getcfg 2#4) := rfl

/-- OPC 0, 0xB, 0xC, 0xD, 0xE, 0xF. -/
theorem test_decode_unassigned :
    decode (.request ⟨0x0FFFFFFF#32, 0#64⟩) = .ok .unassigned0 ∧
    decode (.request ⟨0xB0000000#32, 0#64⟩) = .ok .unassignedB ∧
    decode (.request ⟨0xC0000000#32, 0#64⟩) = .ok .unassignedC ∧
    decode (.request ⟨0xD0000000#32, 0#64⟩) = .ok .unassignedD ∧
    decode (.request ⟨0xE0000000#32, 0#64⟩) = .ok .unassignedE ∧
    decode (.request ⟨0xF4010000#32, 0#64⟩) = .ok .unassignedF := ⟨rfl, rfl, rfl, rfl, rfl, rfl⟩

/-- `01 1010 01`, the read frame of GAINCAL, and `01 0100 10`, the write frame of CONFIG3. -/
theorem test_decode_frames :
    decode (.wire 0b01101001#8) = .ok (.readFrame 0xA#4) ∧
    decode (.wire 0b01010010#8) = .ok (.writeFrame 0x4#4) := ⟨rfl, rfl⟩

/-- The four bytes of 30_encoding.md R72. -/
theorem test_decode_fast_bytes :
    decode (.wire 0b01101000#8) = .ok .fastConversion ∧ decode (.wire 0b01101100#8) = .ok .fastStandby ∧
    decode (.wire 0b01110000#8) = .ok .fastShutdown ∧ decode (.wire 0b01111000#8) = .ok .fastFullReset :=
  ⟨rfl, rfl, rfl, rfl⟩

/-- The refused bytes, each by its name: a device other than 1, OP 3, OP 0 and no fast command. -/
theorem test_decode_refused_bytes :
    decode (.wire 0xC1#8) = .error .invalidDevice ∧ decode (.wire 0x43#8) = .error .noSuchOperation ∧
    decode (.wire 0x74#8) = .error .noSuchFastCommand := ⟨rfl, rfl, rfl⟩

/-- `decodeTableWord` reads a CTL row's word and a byte row's byte. -/
theorem test_decodeTableWord :
    decodeTableWord 32 0x30040000 = some (.rdreg 0x0#4 4#4) ∧ decodeTableWord 8 0x7E = some (.writeFrame 0xF#4) ∧
    decodeTableWord 8 0x00 = none := ⟨rfl, rfl, rfl⟩

/-- `WRREG 0x7, 3, 0x123456` (95_test_vectors.md section 3.1) encodes to its CTL and DATA words. -/
theorem test_encode_wrreg :
    encode (.wrreg 0x7#4 3#4 0x123456#32) = .request ⟨0x47030000#32, 0x123456#64⟩ := by decide

/-! ### The catalog (20_memory.md R51) -/

/-- Thirteen registers and three reserved addresses; the fitting lengths of ADCDATA, CONFIG0 and CRCCFG. -/
theorem test_catalog :
    (List.range 16).filter (fun n => reserved (BitVec.ofNat 4 n)) = [0xB, 0xC, 0xE] ∧
    fittingLength 0x0#4 = some 4 ∧ fittingLength 0x1#4 = some 2 ∧ fittingLength 0xF#4 = some 3 ∧
    fittingLength 0xC#4 = none := by decide

/-! ### The codec (95_test_vectors.md section 2) -/

theorem test_encf_config3_write : ask 0x14600000#32 0#64 idle = some (0x0#4, 0x52#64, 0#8) := by decide
theorem test_encf_device_check_first : ask 0x13B00000#32 0#64 idle = some (0x1#4, 0#64, 0#8) := by decide
theorem test_decf_config3_write : ask 0x20000000#32 0x52#64 idle = some (0x0#4, 0x010402#64, 0#8) := by decide
theorem test_decf_fast_byte : ask 0x20000000#32 0x68#64 idle = some (0x3#4, 0#64, 0#8) := by decide

/-! ### The sequencer (95_test_vectors.md sections 3 and 4) -/

/-- `RDREG 0xE, 0`: the register check comes first. -/
theorem test_rdreg_register_first : ask 0x3E000000#32 0#64 idle = some (0x2#4, 0#64, 0#8) := by decide

/-- `RDREG 0x0, 4` latches 0x41 and asserts chip-select. -/
theorem test_rdreg_issue :
    done (fun t => (t.tx, t.tLen, t.cs, t.ph)) (.rdreg 0x0#4 4#4) idle =
      some (⟨0x41#8, 0#8, 0#8, 0#8, 0#8⟩, 4#3, true, .start) := by decide

/-- `WRREG 0x7, 3, 0x123456`: 0x5E, then the payload most significant byte first. -/
theorem test_wrreg_issue :
    done (fun t => (t.tx, t.tKind)) (.wrreg 0x7#4 3#4 0x123456#32) idle =
      some (⟨0x5E#8, 0x12#8, 0x34#8, 0x56#8, 0#8⟩, .write) := by decide

/-- `WRREG 0x1, 0, 0`: InvalidLength. -/
theorem test_wrreg_length : ask 0x41000000#32 0#64 idle = some (0x4#4, 0#64, 0#8) := by decide

/-- `FAST STANDBY` latches 0x6C and writes no other slot. -/
theorem test_fast_issue :
    done (fun t => (t.tx, t.tLen)) (.fast .standby) { idle with tx := ⟨0x45#8, 1#8, 2#8, 3#8, 4#8⟩ } =
      some (⟨0x6C#8, 1#8, 2#8, 3#8, 4#8⟩, 1#3) := by decide

/-- START of `RDREG 0x0, 4`, accepted: one submission of 0x41, on to WTX1. -/
theorem test_readFrame_accepted :
    done (fun t => (t.trace, t.ph)) (.readFrame 0x0#4) (inFlight .start .read 0x41#8 .seq .accepted) =
      some ([.sub .wr [0x41#8] .accepted], .wtx1) := by decide

/-- Phase 1 answered `BUSY`: `CS-` and the error in the same step, TP unchanged (section 3.3). -/
theorem test_readFrame_busy :
    done (fun t => (t.trace, t.ph, t.tpBusy)) (.readFrame 0x0#4) (inFlight .start .read 0x41#8 .seq .busy) =
      some ([.sub .wr [0x41#8] .busy, .csDown, .resp .transportBusy 0#64 0#8], .idle, false) := by decide

/-- A stale `DONE` is cleared by START (section 3.4). -/
theorem test_writeFrame_clears_done :
    done (fun t => (t.done, t.ph)) (.writeFrame 0x4#4)
      { inFlight .start .write 0x52#8 .seq .accepted with done := true } = some (false, .wtx1) := by decide

theorem test_fastConversion_sent :
    done (fun t => (t.tpCur, t.ph)) .fastConversion (inFlight .start .fast 0x68#8 .seq .accepted) =
      some (some ⟨.wr, [0x68#8]⟩, .final) := by decide

/-- With the transmitter still busy `ACCEPTED` is impossible (section 3.4, "The next transaction after a timeout"). -/
theorem test_fastStandby_transmitter_busy :
    done (fun t => (t.trace, t.cs)) .fastStandby
      { inFlight .start .fast 0x6C#8 .seq .accepted with tpTxBusy := true, tpBusy := true } =
      some ([.sub .wr [0x6C#8] .busy, .csDown, .resp .transportBusy 0#64 0#8], false) := by decide

/-- `FAST`, phase 1 `FAIL`: the block stays in service (section 4). -/
theorem test_fastShutdown_fail :
    done (fun t => (t.respStatus.code, t.ph, t.cs)) .fastShutdown (inFlight .start .fast 0x70#8 .seq .fail) =
      some (0x5#4, .idle, false) := by decide

/-- `FULLRESET` resets no configuration register (section 4). -/
theorem test_fastFullReset_keeps_config :
    done (fun t => t.cfgPollLimit) .fastFullReset
      { inFlight .start .fast 0x78#8 .seq .accepted with cfgPollLimit := 9#32 } = some 9#32 := by decide

/-- P2 of the read clocks four fill bytes out as `WRRD`. -/
theorem test_p2_read :
    next (fun t => (t.trace, t.ph)) (inFlight .p2 .read 0x41#8 .seq .accepted) =
      some ([.sub .wrrd [0#8, 0#8, 0#8, 0#8] .accepted], .final) := by decide

/-- The release of the read of section 1.4: 0xA5 dropped, 0x123456 answered. -/
theorem test_final_read :
    next (fun t => (t.trace, t.done))
      { inFlight .final .read 0x41#8 .seq .accepted with done := true } =
      some ([.csDown, .resp .ok 0x123456#64 3#8], false) := by decide

/-- A read of the dummy-clock byte only answers 0 and 0 (section 3.1). -/
theorem test_final_dummy_only :
    answer (step { inFlight .final .read 0x41#8 .seq .accepted with done := true, tLen := 1#3 }) =
      some (0x0#4, 0#64, 0#8) := by decide

/-- Timeout at `WTX1`, L = 1 (section 3.4): `POLL_CNT = 1`, TP still busy. -/
theorem test_timeout_wtx1 :
    next (fun t => (t.trace, t.pollCnt, t.tpTxBusy))
      { inFlight .wtx1 .read 0x45#8 .seq .accepted with tpBusy := true, tpTxBusy := true, cfgPollLimit := 1#32 } =
      some ([.csDown, .resp .transportTimeout 0#64 0#8], 1#32, true) := by decide

/-- TP's completion of the `WRRD` of section 1.4: the four bytes land in `RX[1..4]`. -/
theorem test_completion :
    next (fun t => (t.rx, t.done, t.trace))
      { inFlight .final .read 0x41#8 .tp .accepted with
        tpBusy := true, tpCur := some ⟨.wrrd, [0#8, 0#8, 0#8, 0#8]⟩, rx := zeroBuffer } =
      some (⟨0#8, 0xA5#8, 0x12#8, 0x34#8, 0x56#8⟩, true, [.cap [0xA5#8, 0x12#8, 0x34#8, 0x56#8]]) := by decide

/-- `RST` at FINAL (section 3.6): `CS-`, no response, TP keeps its state. -/
theorem test_reset_in_flight :
    next (fun t => (t.trace, t.respValid, t.tpBusy, t.ph))
      { inFlight .final .read 0x41#8 .rst .accepted with tpBusy := true } =
      some ([.csDown], false, true, .idle) := by decide

/-! ### The converter (95_test_vectors.md sections 1.2 and 5) -/

theorem test_dec24_most_negative : ask 0x60000000#32 0x800000#64 idle =
    some (0x0#4, 0xFFFFFFFFFF800000#64, 0#8) := by decide
theorem test_dec24_high_bits_ignored : ask 0x60000000#32 0xFFFFFFFFFF000001#64 idle =
    some (0x0#4, 0x1#64, 0#8) := by decide
theorem test_tovolt_largest_sample : ask 0x70000000#32 0x007FFFFF#64 idle =
    some (0x0#4, 0x400A666631999999#64, 0#8) := by decide +kernel
theorem test_tovolt_overflow :
    ask 0x70000000#32 0x7FFFFFFF#64 { idle with cfgFullScale := 0x7FE1CCF385EBC8A0#64, cfgResolution := 1#32 } =
      some (0x8#4, 0#64, 0#8) := by decide +kernel
theorem test_dsplit_just_below_half : ask 0x80010000#32 0x3FC3333333333333#64 idle =
    some (0x0#4, 0x1#64, 0#8) := by decide +kernel
theorem test_dsplit_carry_too_large : ask 0x80030000#32 0x41EFFFFFFFFFFF2E#64 idle =
    some (0x8#4, 0#64, 0#8) := by decide +kernel

/-! ### Configuration and unassigned requests (95_test_vectors.md sections 6 and 7) -/

theorem test_setcfg_resolution :
    done (fun t => (t.cfgResolution, t.cfgFullScale)) (.setcfg 1#4 0x00400000#64) idle =
      some (0x00400000#32, 0x400A666666666666#64) := by decide
theorem test_setcfg_no_register : ask 0x93000000#32 5#64 idle = some (0x2#4, 0#64, 0#8) := by decide
theorem test_getcfg_full_scale : ask 0xA0000000#32 0#64 idle =
    some (0x0#4, 0x400A666666666666#64, 0#8) := by decide
theorem test_getcfg_no_register : ask 0xAF000000#32 0#64 idle = some (0x2#4, 0#64, 0#8) := by decide
theorem test_unassigned_F : ask 0xF4010000#32 0#64 idle = some (0x9#4, 0#64, 0#8) := by decide
theorem test_unassigned_0 : ask 0x00000000#32 0#64 idle = some (0x9#4, 0#64, 0#8) := by decide

/-! ### Pseudo-requests (30_encoding.md R83) -/

/-- `READ CRCCFG` captures three bytes, `WRITE SCAN` sends three, `READ` of a reserved address one. -/
theorem test_expand :
    expand (.read 0xF#4) = some [.request (.rdreg 0xF#4 3#4)] ∧
    expand (.write 0x7#4 0xAB123456#32) = some [.request (.wrreg 0x7#4 3#4 0x123456#32)] ∧
    expand (.read 0xC#4) = some [.request (.rdreg 0xC#4 1#4)] ∧ expand .default = none := by decide

/-! ### Placing an instruction -/

/-- From reset with a request placed, the very next step issues it. -/
theorem test_place_request : answer (step (State.reset.withFetchWord 32 0x00000000)) = some (0x9#4, 0#64, 0#8) := by
  decide

/-- From reset with a command byte placed, the very next step submits it. -/
theorem test_place_byte : (State.reset.withFetchWord 8 0x41).fetch = some (.wire 0x41#8) := rfl

/-! ### The hypotheses of the statements can be met -/

/-- The idle state meets the invariant. -/
theorem inv_idle : Inv idle := by
  constructor <;> simp [idle, State.reset, waiting, Config.pollLimitReset]

/-- A read at START with SEQ to move. -/
def starting : State := inFlight .start .read 0x41#8 .seq .accepted

theorem inv_starting : Inv starting := by
  constructor <;> simp [starting, inFlight, State.reset, waiting, phase2Bytes, commandBytes, kindOfCommand, frameOp,
    opRead, Config.pollLimitReset]

/-- A read at FINAL whose completion has come, with SEQ to move. -/
def releasing : State := { inFlight .final .read 0x41#8 .seq .accepted with done := true }

theorem inv_releasing : Inv releasing := by
  constructor <;> simp [releasing, inFlight, State.reset, waiting, phase2Bytes, commandBytes, kindOfCommand, frameOp,
    opRead, Config.pollLimitReset]

theorem witness_DecodeInvertsEncode : WellFormed (.wrreg 0x7#4 4#4 0xFFFFFFFF#32) ∧ WellFormed (.setcfg 15#4 0#64) := by
  decide

theorem witness_EncodeInvertsWireDecode : decode (.wire 0x6D#8) = .ok (.readFrame 0xB#4) := rfl

/-- Two `RDREG` requests that differ in every unused field, and two `WRREG` requests with one payload. -/
theorem witness_UnusedRequestBitsAreIgnored :
    usedFieldsAgree ⟨0x34020000#32, 0#64⟩ ⟨0x34F2FFFF#32, 0xFFFFFFFFFFFFFFFF#64⟩ ∧
    usedFieldsAgree ⟨0x41040000#32, 0x12345678#64⟩ ⟨0x41043FFF#32, 0xFF12345678#64⟩ ∧
    decode (.request ⟨0x10503FFF#32, 0xFFFFFFFFFFFFFFFF#64⟩) = .ok (.encf 0x0#4 0b01#2 0b01#2) ∧
    idle.draw.agent = .host ∧ idle.ph = .idle ∧
    ctlOpc 0xB0000000#32 ∈ [0x0#4, 0xB#4, 0xC#4, 0xD#4, 0xE#4, 0xF#4] :=
  ⟨by unfold usedFieldsAgree; decide, by unfold usedFieldsAgree; decide, rfl, rfl, rfl, by decide⟩

theorem witness_CommandBytesAreTheThirty :
    (Inv starting ∧ starting.ph = .start ∧ ∃ t ev, step starting = .next t ∧ t.trace = starting.trace ++ ev ∧
      Event.sub .wr [0x41#8] .accepted ∈ ev) ∧ (0x7E#8 ∈ commandBytes ∧ idle.ph = .idle) :=
  ⟨⟨inv_starting, rfl, _, [.sub .wr [0x41#8] .accepted], rfl, rfl, by decide⟩, by decide, rfl⟩

/-- Every clause: a frame, a wrong device at its largest value, the two wrong operations. -/
theorem witness_EncfPacksAFrame :
    (∃ r : Request, r.ctl.extractLsb' 28 4 = 0x1#4 ∧ r.ctl.extractLsb' 24 4 = 0xF#4 ∧ r.ctl.extractLsb' 22 2 = 0b01#2 ∧
      r.ctl.extractLsb' 20 2 = 0b01#2) ∧
    (∃ r : Request, r.ctl.extractLsb' 28 4 = 0x1#4 ∧ r.ctl.extractLsb' 22 2 = 0b11#2) ∧
    (∃ r : Request, r.ctl.extractLsb' 28 4 = 0x1#4 ∧ r.ctl.extractLsb' 22 2 = 0b01#2 ∧
      r.ctl.extractLsb' 20 2 = 0b11#2) ∧ idle.ph = .idle :=
  ⟨⟨⟨0x1F500000#32, 0#64⟩, by decide⟩, ⟨⟨0x1FC00000#32, 0#64⟩, by decide⟩, ⟨⟨0x13700000#32, 0#64⟩, by decide⟩, rfl⟩

theorem witness_DecfUnpacksAFrame :
    (∃ r : Request, r.ctl.extractLsb' 28 4 = 0x2#4 ∧ r.data.extractLsb' 0 8 = 0x7E#8) ∧
    ((0x7E#8).extractLsb' 6 2 = 0b01#2 ∧ (0x7E#8).extractLsb' 0 2 = 0b10#2) ∧
    (0xC1#8).extractLsb' 6 2 ≠ 0b01#2 ∧
    ((0x78#8).extractLsb' 6 2 = 0b01#2 ∧ (0x78#8).extractLsb' 0 2 = 0b00#2) ∧ idle.ph = .idle :=
  ⟨⟨⟨0x20000000#32, 0x7E#64⟩, by decide⟩, by decide, by decide, by decide, rfl⟩

theorem witness_FrameRoundTrip :
    idle.ph = .idle ∧ (∃ t, exec (.decf 0x52#8) idle = .next t ∧ t.respStatus = .ok) ∧
    (∃ t t', exec (.encf 0xE#4 0b01#2 0b10#2) idle = .next t ∧ exec (.encf 0xE#4 0b01#2 0b10#2) idle = .next t' ∧
      t.respStatus = .ok ∧ t'.respStatus = .ok ∧ t.respData = t'.respData) :=
  ⟨rfl, ⟨_, rfl, rfl⟩, ⟨_, _, rfl, rfl, rfl, rfl, rfl⟩⟩

/-- The longest and the shortest length, and the highest register. -/
theorem witness_RdregLatchesARead :
    (ctlOpc 0x3F040000#32 = 0x3#4 ∧ ctlReg 0x3F040000#32 = 0xF#4 ∧ ctlLen 0x3F040000#32 = 4#4) ∧
    ctlLen 0x3F010000#32 = 1#4 ∧ idle.ph = .idle ∧ (0xF#4) ∉ [0xB#4, 0xC#4, 0xE#4] ∧ 1 ≤ (1#4).toNat ∧
    (1#4).toNat ≤ 4 ∧ 1 ≤ (4#4).toNat ∧ (4#4).toNat ≤ 4 := by decide

/-- Each length. -/
theorem witness_WrregLatchesAWrite :
    idle.ph = .idle ∧ (0xD#4) ∉ [0xB#4, 0xC#4, 0xE#4] ∧
    [0x4D010000#32, 0x4D020000#32, 0x4D030000#32, 0x4D040000#32].map (fun c => (ctlOpc c, ctlReg c, ctlLen c)) =
      [(0x4#4, 0xD#4, 1#4), (0x4#4, 0xD#4, 2#4), (0x4#4, 0xD#4, 3#4), (0x4#4, 0xD#4, 4#4)] := by decide

/-- One request for each selector. -/
theorem witness_FastLatchesACommand :
    idle.ph = .idle ∧
    ((0x50000000#32).extractLsb' 28 4 = 0x5#4 ∧ (0x50000000#32).extractLsb' 14 2 = 0b00#2) ∧
    ((0x50004000#32).extractLsb' 28 4 = 0x5#4 ∧ (0x50004000#32).extractLsb' 14 2 = 0b01#2) ∧
    ((0x50008000#32).extractLsb' 28 4 = 0x5#4 ∧ (0x50008000#32).extractLsb' 14 2 = 0b10#2) ∧
    ((0x5000C000#32).extractLsb' 28 4 = 0x5#4 ∧ (0x5000C000#32).extractLsb' 14 2 = 0b11#2) := by decide

/-- A reserved register; and both sides of the legal lengths, 0 and 5. -/
theorem witness_ValidationTouchesNoBus :
    idle.ph = .idle ∧ (0xB#4) ∈ [0xB#4, 0xC#4, 0xE#4] ∧ (0xD#4) ∉ [0xB#4, 0xC#4, 0xE#4] ∧ (0#4).toNat = 0 ∧
      5 ≤ (5#4).toNat := by decide

/-- One state for each command byte. -/
theorem witness_CommandBytesAreSent :
    ∀ p ∈ [(TransferKind.read, 0b01#2 ++ 0xF#4 ++ 0b01#2), (TransferKind.write, 0b01#2 ++ 0x0#4 ++ 0b10#2),
      (TransferKind.fast, 0x68#8), (TransferKind.fast, 0x6C#8), (TransferKind.fast, 0x70#8),
      (TransferKind.fast, 0x78#8)],
      let s := inFlight .start p.1 p.2 .seq .accepted;
      s.ph = .start ∧ s.tpTxBusy = false ∧ s.draw.answer = .accepted ∧ s.tKind = p.1 ∧ s.tx.s0 = p.2 := by decide

theorem witness_StartSubmitsTheCommandByte : starting.draw.agent = .seq ∧ starting.ph = .start := by decide

theorem witness_Wtx1WaitsForTheTransmitter :
    ∀ b ∈ [false, true], let s := { inFlight .wtx1 .read 0x41#8 .seq .accepted with tpTxBusy := b };
      s.draw.agent = .seq ∧ s.ph = .wtx1 ∧ s.tpTxBusy = b := by decide

theorem witness_Wtx2WaitsForTheTransmitter :
    (∀ b ∈ [false, true], let s := { inFlight .wtx2 .write 0x52#8 .seq .accepted with tpTxBusy := b };
      s.draw.agent = .seq ∧ s.ph = .wtx2 ∧ s.tpTxBusy = b) ∧
    (∃ s t, s.ph ≠ .wtx2 ∧ step s = .next t ∧ t.ph = .wtx2) :=
  ⟨by decide, inFlight .p2 .write 0x52#8 .seq .accepted, _, by decide, rfl, rfl⟩

/-- A read and a write, at the longest length and the shortest. -/
theorem witness_P2SubmitsThePayload :
    (let s := inFlight .p2 .read 0x41#8 .seq .accepted;
      s.draw.agent = .seq ∧ s.ph = .p2 ∧ 1 ≤ s.tLen.toNat ∧ s.tLen.toNat ≤ 4 ∧ s.tKind = .read) ∧
    (let s := { inFlight .p2 .write 0x52#8 .seq .fail with tLen := 1#3 };
      s.draw.agent = .seq ∧ s.ph = .p2 ∧ 1 ≤ s.tLen.toNat ∧ s.tLen.toNat ≤ 4 ∧ s.tKind ≠ .read) := by decide

theorem witness_FinalReleases :
    (releasing.draw.agent = .seq ∧ releasing.ph = .final ∧ releasing.done = true ∧ releasing.tpBusy = false ∧
      releasing.tKind = .read ∧ 1 ≤ releasing.tLen.toNat ∧ releasing.tLen.toNat ≤ 4) ∧
    (let s := { inFlight .final .fast 0x68#8 .seq .accepted with done := true };
      s.draw.agent = .seq ∧ s.ph = .final ∧ s.done = true ∧ s.tpBusy = false ∧ s.tKind ≠ .read) ∧
    (let s := { inFlight .final .write 0x52#8 .seq .accepted with done := true, tpBusy := true };
      s.draw.agent = .seq ∧ s.ph = .final ∧ s.tpBusy = true) := by decide

/-- A hold of SEQ, a poll below the limit, and the poll that reaches it. -/
theorem witness_FalseWaitsHoldOrPoll :
    (let s := { inFlight .wtx1 .read 0x41#8 .seq .accepted with tpTxBusy := true };
      waiting s.ph = true ∧ waitOver s = false ∧ s.cfgPollLimit = 0#32 ∧ s.draw.agent = .seq) ∧
    (let s := { inFlight .final .read 0x41#8 .seq .accepted with cfgPollLimit := 2#32 };
      waiting s.ph = true ∧ waitOver s = false ∧ s.cfgPollLimit ≠ 0#32 ∧ s.draw.agent = .seq ∧
        s.pollCnt.toNat + 1 < s.cfgPollLimit.toNat) ∧
    (let s := { inFlight .wtx2 .write 0x52#8 .seq .accepted with tpTxBusy := true, cfgPollLimit := 1#32 };
      waiting s.ph = true ∧ waitOver s = false ∧ s.cfgPollLimit ≠ 0#32 ∧ s.draw.agent = .seq ∧
        s.cfgPollLimit.toNat ≤ s.pollCnt.toNat + 1) ∧
    (∃ t, step starting = .next t ∧ waiting t.ph = true ∧ t.ph ≠ starting.ph) :=
  ⟨by decide, by decide, by decide, _, rfl, rfl, by decide⟩

/-- The release of a read. -/
theorem witness_SuccessLeavesTheTransportIdle :
    Inv releasing ∧ releasing.ph ≠ .idle ∧ ∃ t ev, step releasing = .next t ∧ t.trace = releasing.trace ++ ev ∧
      Event.resp .ok 0x123456#64 3#8 ∈ ev :=
  ⟨inv_releasing, by decide, _, [.csDown, .resp .ok 0x123456#64 3#8], rfl, rfl, by decide⟩

theorem witness_SubmissionAnswers :
    (∃ t ev, step starting = .next t ∧ t.trace = starting.trace ++ ev ∧ Event.sub .wr [0x41#8] .accepted ∈ ev) ∧
    (∃ t ev, step (inFlight .p2 .write 0x52#8 .seq .busy) = .next t ∧ t.trace = [] ++ ev ∧
      Event.sub .wr [0#8, 0#8, 0#8, 0#8] .busy ∈ ev) ∧
    (starting.ph = .start ∧ starting.tpTxBusy = false) :=
  ⟨⟨_, [.sub .wr [0x41#8] .accepted], rfl, rfl, by decide⟩,
    ⟨_, [.sub .wr [0#8, 0#8, 0#8, 0#8] .busy, .csDown, .resp .transportBusy 0#64 0#8], rfl, rfl, by decide⟩, by decide⟩

/-- A completion of a `WR`, and one of a `WRRD` at the longest capture and the shortest. -/
theorem witness_CompletionCaptures :
    ∀ p ∈ [(SubmitKind.wr, [0x68#8]), (SubmitKind.wrrd, [0#8, 0#8, 0#8, 0#8]), (SubmitKind.wrrd, [0#8])],
      let s := { inFlight .final .read 0x41#8 .tp .accepted with tpBusy := true, tpCur := some ⟨p.1, p.2⟩ };
      s.draw.agent = .tp ∧ s.tpBusy = true ∧ s.tpTxBusy = false ∧ s.notify = true ∧ s.tpCur = some ⟨p.1, p.2⟩ ∧
        1 ≤ p.2.length ∧ p.2.length ≤ 4 := by decide

theorem witness_TransmitterGoesIdle :
    (let s := { inFlight .wtx1 .read 0x41#8 .tp .accepted with tpBusy := true, tpTxBusy := true };
      s.draw.agent = .tp ∧ s.tpTxBusy = true) ∧
    (let s := inFlight .p2 .read 0x41#8 .tp .accepted;
      s.draw.agent = .tp ∧ s.tpTxBusy = false ∧ s.tpBusy = false) := by decide

/-- A completion that is lost. -/
theorem witness_UnconnectedNotificationIsLost :
    let s := { inFlight .final .read 0x41#8 .tp .accepted with tpBusy := true, notify := false };
    s.notify = false ∧ s.done = false ∧ ∃ t, step s = .next t := ⟨rfl, rfl, _, rfl⟩

theorem witness_HostWaitsForReady :
    (let s := inFlight .final .read 0x41#8 .host .accepted;
      s.ph ≠ .idle ∧ s.draw.agent = .host) ∧
    decode (.request ⟨0xA0000000#32, 0#64⟩) = .ok (.getcfg 0#4) := ⟨by decide, rfl⟩

theorem witness_StepRunsTheDecodedInstruction :
    (let s := { idle with requests := [⟨0x60000000#32, 1#64⟩] };
      s.draw.agent = .host ∧ s.ph = .idle ∧ s.requests = ⟨0x60000000#32, 1#64⟩ :: [] ∧
        decode (.request ⟨0x60000000#32, 1#64⟩) = .ok (.dec24 0#8 0#8 1#8)) ∧
    (starting.draw.agent = .seq ∧ starting.ph = .start ∧ decode (.wire starting.tx.s0) = .ok (.readFrame 0#4)) :=
  ⟨⟨rfl, rfl, rfl, rfl⟩, rfl, rfl, rfl⟩

/-- A step that reports an error, and one that reports a success. -/
theorem witness_ResponsesLeaveTheBlockReady :
    (Inv starting ∧ Inv { starting with draw := draw .seq .fail } ∧ ∃ t ev,
      step { starting with draw := draw .seq .fail } = .next t ∧ t.trace = [] ++ ev ∧
        Event.resp .transportSubmitFailure 0#64 0#8 ∈ ev) ∧
    (Inv releasing ∧ ∃ t ev, step releasing = .next t ∧ t.trace = releasing.trace ++ ev ∧
      Event.resp .ok 0x123456#64 3#8 ∈ ev) :=
  ⟨⟨inv_starting, by
      have h := inv_starting
      exact ⟨h.cs_iff, h.len_legal, h.command_legal, h.fill_bytes, h.wtx2_write, h.fast_one_phase, h.resp_invalid,
        h.poll_below, h.error_zero, h.tx_busy, h.completion_due⟩,
      _, [.sub .wr [0x41#8] .fail, .csDown, .resp .transportSubmitFailure 0#64 0#8], rfl, rfl, by decide⟩,
    inv_releasing, _, [.csDown, .resp .ok 0x123456#64 3#8], rfl, rfl, by decide⟩

theorem witness_StatusIsWrittenByFinishOnly :
    (releasing.draw.agent ≠ .rst ∧ ∃ t, step releasing = .next t) ∧
    (let s := { idle with respValid := true, requests := [⟨0x50000000#32, 0#64⟩] };
      s.respValid = true ∧ ∃ t, step s = .next t ∧ t.respValid = false) :=
  ⟨⟨by decide, _, rfl⟩, rfl, _, rfl, rfl⟩

theorem witness_ResetWritesItsList : (inFlight .wtx1 .read 0x41#8 .rst .accepted).draw.agent = .rst := rfl

theorem witness_StepKeepsTheInvariant :
    (Inv idle ∧ ∃ t, step { idle with requests := [] } = .next t) ∧ (Inv starting ∧ ∃ t, step starting = .next t) :=
  ⟨⟨inv_idle, _, rfl⟩, inv_starting, _, rfl⟩

/-- A paired state, a rising edge, a falling edge, a submission. -/
theorem witness_ChipSelectIsPaired :
    (chipSelectPaired { starting with trace := [.csUp] } ∧ ∃ t, step { starting with trace := [.csUp] } = .next t) ∧
    (∃ t, step { idle with requests := [⟨0x50000000#32, 0#64⟩] } = .next t ∧ idle.cs = false ∧ t.cs = true) ∧
    (Inv releasing ∧ ∃ t, step releasing = .next t ∧ releasing.cs = true ∧ t.cs = false) ∧
    (Inv starting ∧ ∃ t ev, step starting = .next t ∧ t.trace = starting.trace ++ ev ∧
      Event.sub .wr [0x41#8] .accepted ∈ ev) :=
  ⟨⟨by unfold chipSelectPaired; decide, _, rfl⟩, ⟨_, rfl, rfl, rfl⟩, ⟨inv_releasing, _, rfl, rfl, rfl⟩,
    inv_starting, _, [.sub .wr [0x41#8] .accepted], rfl, rfl, by decide⟩

theorem witness_EveryTransactionEnds :
    Inv starting ∧ starting.notify = true ∧
      ((fairRounds 5).map fun a => draw a .accepted).map (·.agent) = fairRounds 5 :=
  ⟨inv_starting, rfl, by decide⟩

theorem witness_Dec24SignExtends : (0x60000000#32).extractLsb' 28 4 = 0x6#4 ∧ idle.ph = .idle := by decide

theorem witness_Dec24IsTwosComplement :
    (∃ t, exec (.dec24 0x80#8 0x00#8 0x00#8) idle = .next t) ∧ idle.ph = .idle := ⟨⟨_, rfl⟩, rfl⟩

/-- A result, and each of the three refusals. -/
theorem witness_TovoltMultipliesThenDivides :
    idle.ph = .idle ∧ (ctlOpc 0x70000000#32 = 0x7#4 ∧ (0xFFFFFFFF00000001#64).extractLsb' 0 32 = 1#32) ∧
    (idle.cfgResolution.toNat ≠ 0 ∧ b64Finite idle.cfgFullScale = true ∧
      b64Finite (rne false (1 * magNum idle.cfgFullScale) (magDen idle.cfgFullScale)) = true) ∧
    ({ idle with cfgResolution := 0#32 } : State).cfgResolution.toNat = 0 ∧
    b64Finite ({ idle with cfgFullScale := 0x7FF0000000000000#64 } : State).cfgFullScale = false ∧
    b64Finite (rne false (0x7FFFFFFF * magNum 0x7FE1CCF385EBC8A0#64) (magDen 0x7FE1CCF385EBC8A0#64)) = false := by
  decide +kernel

theorem witness_TovoltSourceProperties :
    idle.ph = .idle ∧ idle.cfgFullScale = 0x400A666666666666#64 ∧ idle.cfgResolution = 0x00800000#32 ∧
    (b64Finite 0xC00A666666666666#64 = true ∧ (1#32 ≠ 0#32)) ∧ b64Finite 0x7FF8000000000000#64 = false := by decide

/-- A finite result with a second finite pattern, and an infinite one. -/
theorem witness_RneRoundsToNearestEven :
    0 < 3 ∧ b64Finite (rne false 1 3) = true ∧ b64Finite 0x3FD5555555555556#64 = true ∧
      b64Finite (rne true (2 * magNum 0x7FE0000000000000#64) 1) = false :=
  ⟨by decide, by decide +kernel, by decide, by decide +kernel⟩

/-- Each clause: ten digits, a NaN, 2^32, and 4294967295.0 just below it at nine digits. -/
theorem witness_DsplitSplitsExactly :
    ((0x800A0000#32).extractLsb' 28 4 = 0x8#4 ∧ 9 < ((0x800A0000#32).extractLsb' 16 4).toNat ∧ idle.ph = .idle) ∧
    (((0x80090000#32).extractLsb' 16 4).toNat ≤ 9 ∧ b64Finite 0x7FF8000000000000#64 = false) ∧
    (b64Finite 0x41F0000000000000#64 = true ∧ magNum 0x41F0000000000000#64 = 4294967296 * magDen 0x41F0000000000000#64) ∧
    (b64Finite 0x41EFFFFFFFE00000#64 = true ∧
      magNum 0x41EFFFFFFFE00000#64 = 4294967295 * magDen 0x41EFFFFFFFE00000#64) :=
  ⟨by decide, by decide, ⟨by decide, by decide +kernel⟩, by decide, by decide +kernel⟩

theorem witness_DsplitFractionFitsItsDigits :
    (done (fun t => t.respStatus) (.dsplit 0xBFF4000000000000#64 1#4) idle) = some .ok := by decide +kernel

/-- Each register and the least index that is none. -/
theorem witness_SetcfgWritesOneRegister :
    idle.ph = .idle ∧ [0x90000000#32, 0x91000000#32, 0x92000000#32, 0x93000000#32].map (ctlOpc ·) =
      [0x9#4, 0x9#4, 0x9#4, 0x9#4] ∧
    [0x90000000#32, 0x91000000#32, 0x92000000#32, 0x93000000#32].map (ctlReg ·) = [0#4, 1#4, 2#4, 3#4] := by decide

theorem witness_GetcfgReadsOneRegister :
    idle.ph = .idle ∧ [0xA0000000#32, 0xA1000000#32, 0xA2000000#32, 0xA3000000#32].map (ctlOpc ·) =
      [0xA#4, 0xA#4, 0xA#4, 0xA#4] ∧
    [0xA0000000#32, 0xA1000000#32, 0xA2000000#32, 0xA3000000#32].map (ctlReg ·) = [0#4, 1#4, 2#4, 3#4] := by decide

/-- Reading back the register written, and another. -/
theorem witness_ConfigurationReadsBack :
    (2#4).toNat < 3 ∧ (0#4).toNat < 3 ∧
    (∃ t u w, exec (.setcfg 2#4 7#64) idle = .next t ∧ exec (.getcfg 2#4) t = .next u ∧
      exec (.getcfg 2#4) idle = .next w) ∧
    (∃ t u w, exec (.setcfg 2#4 7#64) idle = .next t ∧ exec (.getcfg 0#4) t = .next u ∧
      exec (.getcfg 0#4) idle = .next w) :=
  ⟨by decide, by decide, ⟨_, _, _, rfl, rfl, rfl⟩, ⟨_, _, _, rfl, rfl, rfl⟩⟩

theorem witness_ConfigurationIsStable :
    ∃ t, step { idle with requests := [⟨0x92000000#32, 5#64⟩] } = .next t ∧ idle.draw.agent ≠ .rst ∧
      t.cfgPollLimit ≠ idle.cfgPollLimit := ⟨_, rfl, by decide, by decide⟩

theorem witness_UnassignedCodesAreUnknown :
    idle.ph = .idle ∧ (0xB0000000#32).extractLsb' 28 4 ∈ [0x0#4, 0xB#4, 0xC#4, 0xD#4, 0xE#4, 0xF#4] := by decide

theorem witness_RequestFrame :
    (decode (.request ⟨0xA0000000#32, 0#64⟩) = .ok (.getcfg 0#4) ∧ (∃ t, exec (.getcfg 0#4) idle = .next t) ∧
      (0xA0000000#32).extractLsb' 28 4 ∉ [0x3#4, 0x4#4, 0x5#4]) ∧
    (decode (.request ⟨0x30040000#32, 0#64⟩) = .ok (.rdreg 0#4 4#4) ∧ (∃ t, exec (.rdreg 0#4 4#4) idle = .next t) ∧
      (0x30040000#32).extractLsb' 28 4 ≠ 0x9#4) :=
  ⟨⟨rfl, ⟨_, rfl⟩, by decide⟩, rfl, ⟨_, rfl⟩, by decide⟩

theorem witness_CommandByteFrame :
    decode (.wire 0x41#8) = .ok (.readFrame 0#4) ∧ ∃ t, exec (.readFrame 0#4) starting = .next t := ⟨rfl, _, rfl⟩

/-- A capture, and a latch. -/
theorem witness_BuffersHaveOneWriter :
    (let s := { inFlight .final .read 0x41#8 .tp .accepted with
        tpBusy := true, tpCur := some ⟨.wrrd, [0#8]⟩, rx := zeroBuffer };
      s.draw.agent ≠ .rst ∧ ∃ t, step s = .next t ∧ t.rx ≠ s.rx) ∧
    (∃ t, step { idle with requests := [⟨0x50000000#32, 0#64⟩] } = .next t ∧ t.tx ≠ idle.tx) :=
  ⟨⟨by decide, _, rfl, by decide⟩, _, rfl, by decide⟩

/-- A register of the catalog, and a reserved address. -/
theorem witness_CommandsExpandToRequests :
    idle.ph = .idle ∧ (∃ e, catalog 0xF#4 = some e) ∧ catalog 0xE#4 = none := ⟨rfl, ⟨_, rfl⟩, rfl⟩

/-- The release of a four-byte read of ADCDATA. -/
theorem witness_SamplesChain :
    releasing.draw.agent = .seq ∧ releasing.ph = .final ∧ releasing.done = true ∧ releasing.tpBusy = false ∧
    releasing.tKind = .read ∧ releasing.tLen = 4#3 ∧ ∃ t, step releasing = .next t :=
  ⟨rfl, rfl, rfl, rfl, rfl, rfl, _, rfl⟩

/-- A state ready for a whole transaction of the given request. -/
def ready (r : Request) : State := { idle with requests := [r] }

/-- Turns of the given agents, every submission accepted. -/
def turns (l : List Agent) : List Draw := l.map fun a => draw a .accepted

theorem turns_allAccepted (l : List Agent) (h : .rst ∉ l) : allAccepted (turns l) := by
  intro d hd
  obtain ⟨a, ha, rfl⟩ := List.mem_map.1 hd
  exact ⟨fun he => h ((show a = .rst from he) ▸ ha), rfl⟩

/-- A run to the end of the one request, without a timeout. -/
def finishes (l : List Agent) (s : State) : Prop :=
  ∃ t, runWith (turns l) s = some t ∧ t.requests = [] ∧ t.ph = .idle ∧ t.respStatus ≠ .transportTimeout

/-- The longest read of the highest register: the schedule named, and one with idle turns in which the first completion
comes before the second submission. -/
theorem witness_RdregReadsARegister :
    let s := ready ⟨0x3F040000#32, 0#64⟩;
    (s.ph = .idle ∧ s.cs = false ∧ s.tpBusy = false ∧ s.tpTxBusy = false ∧ s.notify = true ∧
    s.requests = ⟨0x3F040000#32, 0#64⟩ :: [] ∧
    decode (.request ⟨0x3F040000#32, 0#64⟩) = .ok (.rdreg 0xF#4 4#4) ∧
    (0xF#4) ∉ [0xB#4, 0xC#4, 0xE#4] ∧ 1 ≤ (4#4).toNat ∧ (4#4).toNat ≤ 4) ∧
    allAccepted (turns [.host, .seq, .tp, .seq, .seq, .tp, .tp, .seq]) ∧
    (∀ d ∈ turns [.host, .seq, .tp, .seq, .seq, .tp, .tp, .seq], d.capture = ⟨0xA5#8, 0x12#8, 0x34#8, 0x56#8⟩) ∧
    finishes [.host, .seq, .tp, .tp, .seq, .host, .seq, .tp, .tp, .seq] s :=
  ⟨⟨rfl, rfl, rfl, rfl, rfl, rfl, rfl, by decide, by decide, by decide⟩, turns_allAccepted _ (by decide), by decide,
    _, rfl, rfl, rfl, by decide⟩

/-- The shortest write of the lowest register. -/
theorem witness_WrregWritesARegister :
    let s := ready ⟨0x40010000#32, 0x55#64⟩;
    (s.ph = .idle ∧ s.cs = false ∧ s.tpBusy = false ∧ s.tpTxBusy = false ∧ s.notify = true ∧
    s.requests = ⟨0x40010000#32, 0x55#64⟩ :: [] ∧
    decode (.request ⟨0x40010000#32, 0x55#64⟩) = .ok (.wrreg 0x0#4 1#4 0x55#32) ∧
    (0x0#4) ∉ [0xB#4, 0xC#4, 0xE#4] ∧ 1 ≤ (1#4).toNat ∧ (1#4).toNat ≤ 4) ∧
    allAccepted (turns [.host, .seq, .tp, .seq, .seq, .tp, .seq, .tp, .seq]) ∧
    finishes [.host, .seq, .tp, .seq, .seq, .tp, .seq, .tp, .seq] s :=
  ⟨⟨rfl, rfl, rfl, rfl, rfl, rfl, rfl, by decide, by decide, by decide⟩, turns_allAccepted _ (by decide),
    _, rfl, rfl, rfl, by decide⟩

theorem witness_FastSendsACommand :
    let s := ready ⟨0x5000C000#32, 0#64⟩;
    (s.ph = .idle ∧ s.cs = false ∧ s.tpBusy = false ∧ s.tpTxBusy = false ∧ s.notify = true ∧
    s.requests = ⟨0x5000C000#32, 0#64⟩ :: [] ∧
    decode (.request ⟨0x5000C000#32, 0#64⟩) = .ok (.fast .fullReset)) ∧
    allAccepted (turns [.host, .seq, .tp, .tp, .seq]) ∧ finishes [.host, .seq, .tp, .tp, .seq] s :=
  ⟨⟨rfl, rfl, rfl, rfl, rfl, rfl, rfl⟩, turns_allAccepted _ (by decide), _, rfl, rfl, rfl, by decide⟩

theorem witness_CatalogHoldsItsTable : idle.ph = .idle := rfl

/-- A submission accepted while the one before it has not completed; and a completion. -/
theorem witness_OverlapsShareOneCompletion :
    (let s := { inFlight .p2 .write 0x52#8 .seq .accepted with tpBusy := true, tLen := 1#3 };
      s.tpBusy = true ∧ s.notify = true ∧ ∃ t, stepWith (draw .seq .accepted) s = .next t ∧
        t.trace = s.trace ++ Event.sub .wr [0#8] .accepted :: []) ∧
    (draw .tp .busy).agent = .tp ∧
    (let s := { inFlight .final .fast 0x68#8 .tp .accepted with tpBusy := true };
      s.draw.agent = .tp ∧ ∃ t, step s = .next t ∧ t.done ≠ s.done) :=
  ⟨⟨rfl, rfl, _, rfl, rfl⟩, rfl, rfl, _, rfl, by decide⟩

/-- SEQ and TP in turn. -/
def alternating (n : Nat) : Draw := if n % 2 = 0 then draw .seq .accepted else draw .tp .accepted

/-- The infinite run of a read under alternating turns. -/
def alternatingRun : Nat → State
  | 0 => starting
  | n + 1 =>
    let s := { alternatingRun n with draw := alternating n }
    (if n % 2 = 0 then s.seqMove else s.tpMove).redraw

theorem alternatingRun_isRun : IsRun alternating alternatingRun := by
  intro n
  by_cases hn : n % 2 = 0
  · rw [stepWith_seq _ _ (by simp [alternating, hn, draw])]
    simp [alternatingRun, hn]
  · rw [stepWith_tp _ _ (by simp [alternating, hn, draw])]
    simp [alternatingRun, hn]

theorem alternating_fair_tp (e : State → Bool) : WeaklyFair alternating alternatingRun .tp e := fun n _ =>
  ⟨2 * n + 1, by omega, by simp [alternating, draw]⟩

theorem alternating_fair_seq (e : State → Bool) : WeaklyFair alternating alternatingRun .seq e := fun n _ =>
  ⟨2 * n, by omega, by simp [alternating, draw]⟩

theorem witness_FairTransmittersGoIdle :
    IsRun alternating alternatingRun ∧ FairToTp alternating alternatingRun :=
  ⟨alternatingRun_isRun, alternating_fair_tp _, alternating_fair_tp _⟩

theorem witness_FairTransactionsEnd :
    IsRun alternating alternatingRun ∧ FairToTp alternating alternatingRun ∧
    WeaklyFair alternating alternatingRun .seq seqEnabled ∧ Inv (alternatingRun 0) ∧
    (alternatingRun 0).notify = true :=
  ⟨alternatingRun_isRun, ⟨alternating_fair_tp _, alternating_fair_tp _⟩, alternating_fair_seq _, inv_starting, rfl⟩

end Sys2Proof.Tests
end

section
/-! SUPPORT. Who writes the response registers (10_state.md R26): every effect of a step but a reset either ends a
request by `finish` or leaves status, data and aux and appends no response; `RESP_VALID` falls at an accepted
transaction only. -/

namespace Sys2Proof.Machine

/-- From `s` to `u` a request was finished: the last event appended is the response that the registers hold. -/
def RespondsTo (s u : State) : Prop :=
  (∃ ev, u.trace = s.trace ++ ev ++ [.resp u.respStatus u.respData u.respAux]) ∧ u.respValid = true ∧ u.ph = .idle

/-- From `s` to `u` no response was appended, and status, data and aux are as they were. -/
def KeepsResult (s u : State) : Prop :=
  (∃ ev, u.trace = s.trace ++ ev ∧ ∀ e d a, Event.resp e d a ∉ ev) ∧
    u.respStatus = s.respStatus ∧ u.respData = s.respData ∧ u.respAux = s.respAux

/-- From `s` to `u` a request was finished, or all four response registers are as they were. -/
def RespondsOrKeeps (s u : State) : Prop :=
  RespondsTo s u ∨ (KeepsResult s u ∧ u.respValid = s.respValid)

variable {s v : State}

/-! ### The two forms, operation by operation -/

theorem finish_respondsTo (e : Status) (d : Word64) (a : Byte) (h : s.trace <+: v.trace) :
    RespondsTo s (State.finish e d a v) := by
  obtain ⟨ev, hev⟩ := h
  exact ⟨⟨ev, by simp [hev]⟩, rfl, rfl⟩

/-- Every error is a `finish` (60_exceptions.md R225). -/
theorem takeError_respondsTo (e : Status) (h : s.trace <+: v.trace) : RespondsTo s (State.takeError e v) :=
  finish_respondsTo e _ _ (h.trans (List.prefix_append _ _))

theorem respondsOrKeeps_of_unwritten (htrace : v.trace = s.trace) (hvalid : v.respValid = s.respValid)
    (hstatus : v.respStatus = s.respStatus) (hdata : v.respData = s.respData) (haux : v.respAux = s.respAux) :
    RespondsOrKeeps s v :=
  .inr ⟨⟨⟨[], by simp [htrace]⟩, hstatus, hdata, haux⟩, hvalid⟩

theorem accepted_keepsResult (k : TransferKind) (n : BitVec 3) (tx : Buffer) (s : State) :
    KeepsResult s (accepted k n tx s) :=
  ⟨⟨_, rfl, by cases s.cs <;> simp⟩, rfl, rfl, rfl⟩

/-! ### SEQ -/

theorem submitPhase_respondsOrKeeps (k : SubmitKind) (l : List Byte) (p : Phase) (s : State) :
    RespondsOrKeeps s (State.submitPhase k l p s) := by
  unfold State.submitPhase
  cases s.tpAnswer with
  | accepted => exact .inr ⟨⟨⟨[.sub k l .accepted], rfl, by simp⟩, rfl, rfl, rfl⟩, rfl⟩
  | busy => exact .inl (takeError_respondsTo _ (List.prefix_append _ _))
  | fail => exact .inl (takeError_respondsTo _ (List.prefix_append _ _))

theorem pollOrHold_respondsOrKeeps (s : State) : RespondsOrKeeps s s.pollOrHold := by
  obtain ⟨-, h⟩ | ⟨-, -, h⟩ | ⟨-, -, h⟩ := pollOrHold_cases s <;> rw [h]
  · exact respondsOrKeeps_of_unwritten rfl rfl rfl rfl rfl
  · exact respondsOrKeeps_of_unwritten rfl rfl rfl rfl rfl
  · exact .inl (takeError_respondsTo _ (List.prefix_refl _))

theorem release_respondsTo (s : State) : RespondsTo s s.release := by
  unfold State.release
  split <;> exact finish_respondsTo _ _ _ (List.prefix_append _ _)

theorem seqWtx1_respondsOrKeeps (s : State) : RespondsOrKeeps s s.seqWtx1 := by
  unfold State.seqWtx1
  split
  · exact pollOrHold_respondsOrKeeps s
  · exact respondsOrKeeps_of_unwritten rfl rfl rfl rfl rfl

theorem seqP2_respondsOrKeeps (s : State) : RespondsOrKeeps s s.seqP2 := by
  unfold State.seqP2
  split <;> exact submitPhase_respondsOrKeeps _ _ _ s

theorem seqWtx2_respondsOrKeeps (s : State) : RespondsOrKeeps s s.seqWtx2 := by
  unfold State.seqWtx2
  split
  · exact pollOrHold_respondsOrKeeps s
  · exact respondsOrKeeps_of_unwritten rfl rfl rfl rfl rfl

theorem seqFinal_respondsOrKeeps (s : State) : RespondsOrKeeps s s.seqFinal := by
  unfold State.seqFinal
  split
  · exact .inl (release_respondsTo s)
  · exact pollOrHold_respondsOrKeeps s

theorem seqMove_respondsOrKeeps (s : State) : RespondsOrKeeps s s.seqMove := by
  unfold State.seqMove
  cases s.ph with
  | idle => exact respondsOrKeeps_of_unwritten rfl rfl rfl rfl rfl
  | start => exact submitPhase_respondsOrKeeps _ _ _ s
  | wtx1 => exact seqWtx1_respondsOrKeeps s
  | p2 => exact seqP2_respondsOrKeeps s
  | wtx2 => exact seqWtx2_respondsOrKeeps s
  | final => exact seqFinal_respondsOrKeeps s

/-! ### TP -/

/-- A completion appends a capture or nothing, never a response (41_sequencer.md R125). -/
theorem tpComplete_respondsOrKeeps (s : State) : RespondsOrKeeps s s.tpComplete := by
  unfold State.tpComplete
  split
  · exact .inr ⟨⟨⟨_, rfl, by simp⟩, rfl, rfl, rfl⟩, rfl⟩
  · exact respondsOrKeeps_of_unwritten rfl rfl rfl rfl rfl

theorem tpMove_respondsOrKeeps (s : State) : RespondsOrKeeps s s.tpMove := by
  obtain ⟨-, h⟩ | ⟨-, -, h⟩ | ⟨-, -, h⟩ := tpMove_cases s <;> rw [h]
  · exact respondsOrKeeps_of_unwritten rfl rfl rfl rfl rfl
  · exact tpComplete_respondsOrKeeps s
  · exact respondsOrKeeps_of_unwritten rfl rfl rfl rfl rfl

/-! ### HOST and the whole step -/

/-- A request is answered at once, or accepted as a transaction. -/
theorem requestEffect_response {u : State} (h : RequestEffect s u) :
    RespondsTo s u ∨ (KeepsResult s u ∧ u.ph = .start) := by
  cases h with
  | responds s' e d a hcfg _ =>
    have htrace : s'.trace = s.trace := by obtain rfl | ⟨x, y, z, rfl⟩ := hcfg <;> rfl
    rw [← finish_eq_responded]
    exact .inl (finish_respondsTo e d a (htrace ▸ List.prefix_refl _))
  | accepts k n tx _ _ _ => exact .inr ⟨accepted_keepsResult k n tx s, rfl⟩

/-- What a step other than a reset does to the response registers: it finishes a request, leaves all four, or is HOST's
issue of a transaction request, which leaves all but `RESP_VALID`. -/
theorem step_response_cases {t : State} (ha : s.draw.agent ≠ .rst) (h : step s = .next t) :
    RespondsOrKeeps s t ∨ (KeepsResult s t ∧ s.draw.agent = .host ∧ s.ph = .idle ∧ t.ph = .start) := by
  obtain ⟨u, rfl, hu⟩ := step_effect s h
  cases hu with
  | waits _ => exact .inl (respondsOrKeeps_of_unwritten rfl rfl rfl rfl rfl)
  | issues r rest _ hhost hs _ _ he =>
    obtain hr | ⟨hk, hp⟩ := requestEffect_response he
    · exact .inl (.inl hr)
    · exact .inr ⟨hk, hhost, hs, hp⟩
  | sequences _ => exact .inl (seqMove_respondsOrKeeps s)
  | transports _ => exact .inl (tpMove_respondsOrKeeps s)
  | resets hrst => exact absurd hrst ha

/-- Settles O29: of the three forms of `step_response_cases`, only `finish` writes the status and only an accepted
transaction ends `RESP_VALID`. -/
theorem statusIsWrittenByFinishOnly : Obligations.StatusIsWrittenByFinishOnly := by
  intro s t ha h
  obtain (⟨⟨ev, htrace⟩, hvalid, hph⟩ | ⟨hkeeps, hvalid⟩) | ⟨hkeeps, hissue⟩ := step_response_cases ha h
  · exact ⟨.inl ⟨ev, _, _, htrace, rfl, rfl, hvalid, hph⟩, fun _ hf => by simp [hvalid] at hf⟩
  · exact ⟨.inr hkeeps, fun ht hf => by simp [hvalid, ht] at hf⟩
  · exact ⟨.inr hkeeps, fun _ _ => hissue⟩

end Sys2Proof.Machine
end

section
/-! SUPPORT. The register catalog ROM (20_memory.md R51) as the requests show it: the frame that `ENCF` produces for an
address, reserved or not, and the read that `RDREG` accepts at a register's fitting length. -/

namespace Sys2Proof.Machine

variable {s : State}

/-- Both operations of the codec pass its check for the device of the block, whatever the register (40_codec.md R103). -/
theorem codecError_deviceAddress {op : BitVec 2} (hop : op = opRead ∨ op = opWrite) :
    codecError Config.deviceAddress op = none := by
  obtain rfl | rfl := hop <;> rfl

theorem exec_encf_at_idle (reg : BitVec 4) {op : BitVec 2} (hs : s.ph = .idle) (hop : op = opRead ∨ op = opWrite) :
    exec (.encf reg Config.deviceAddress op) s =
      .next (responded .ok ((frame Config.deviceAddress reg op).setWidth 64) 0#8 s) := by
  simp [exec, execEncf, State.codecResult, codecError_deviceAddress hop, hs, finish_eq_responded]

/-- A register with a fitting length is not reserved, and the length, `width/8 + 1`, is one that transfers may have. -/
theorem transferError_of_fittingLength {reg len : BitVec 4} (hfit : fittingLength reg = some len.toNat) :
    transferError reg len = none := by
  revert reg len
  decide

/-- At its fitting length a register is accepted for a read, whose command byte is the register's read frame. -/
theorem exec_rdreg_fitting {reg len : BitVec 4} (hs : s.ph = .idle) (hfit : fittingLength reg = some len.toNat) :
    exec (.rdreg reg len) s = .next (accepted .read (len.setWidth 3)
      (writeSlots s.tx (frame Config.deviceAddress reg opRead :: List.replicate len.toNat Config.fillByte)) s) := by
  simp [exec, execRdreg, State.issueTransfer, transferError_of_fittingLength hfit, hs, acceptTransaction_eq_accepted]

/-- Settles O55, row by row: the columns are the ROM's by computation, the frames come from `exec_encf_at_idle`, and the
fitting length gives `exec_rdreg_fitting`. -/
theorem catalogHoldsItsTable : Obligations.CatalogHoldsItsTable := by
  intro s hs
  have hread := fun reg => exec_encf_at_idle reg hs (.inl rfl)
  have hwrite := fun reg => exec_encf_at_idle reg hs (.inr rfl)
  constructor
  · intro row hrow
    fin_cases hrow <;> exact ⟨rfl, rfl, hread _, hwrite _, _, exec_rdreg_fitting hs rfl, rfl, rfl⟩
  · intro row hrow
    fin_cases hrow <;> exact ⟨rfl, rfl, hread _, hwrite _⟩

end Sys2Proof.Machine
end

section
/-! SUPPORT. What a request decodes to (30_encoding.md R76, R79): the used fields alone, an operand free of unused bits,
and so an instruction that its own word decodes to again; an unassigned code finishes with UnknownRequest. -/

namespace Sys2Proof

/-! ### The payload of WRREG and the value of SETCFG

Well formed is the operand that its own data word decodes to. -/

theorem writePayload_toNat {len : BitVec 4} (hlen : 1 ≤ len.toNat ∧ len.toNat ≤ Config.maxLength)
    (data : Word64) : (writePayload len data).toNat = data.toNat % 2 ^ (8 * len.toNat) := by
  have hle : len.toNat ≤ 4 := hlen.2
  have hwidth : 2 ^ (8 * len.toNat) ≤ 2 ^ 32 := Nat.pow_le_pow_right (by decide) (by omega)
  have hlt : data.toNat % 2 ^ (8 * len.toNat) < 2 ^ (8 * len.toNat) := Nat.mod_lt _ (by positivity)
  rw [writePayload, if_pos hlen, BitVec.toNat_ofNat, Nat.mod_eq_of_lt (by omega)]

theorem writePayload_of_illegal {len : BitVec 4} (hlen : ¬ (1 ≤ len.toNat ∧ len.toNat ≤ Config.maxLength))
    (data : Word64) : writePayload len data = 0#32 :=
  if_neg hlen

theorem wellFormed_wrreg_iff {reg len : BitVec 4} {value : Word32} :
    WellFormed (.wrreg reg len value) ↔ writePayload len (value.setWidth 64) = value := by
  by_cases hlen : 1 ≤ len.toNat ∧ len.toNat ≤ Config.maxLength
  · rw [← BitVec.toNat_inj, writePayload_toNat hlen, BitVec.toNat_setWidth_of_le (by decide),
      Nat.mod_eq_iff_lt (by positivity)]
    simp [WellFormed, Instr.wellFormed, hlen]
  · rw [writePayload_of_illegal hlen, eq_comm]
    simp [WellFormed, Instr.wellFormed, hlen]

theorem wellFormed_setcfg_iff {idx : BitVec 4} {value : Word64} :
    WellFormed (.setcfg idx value) ↔ configOperand idx value = value := by
  by_cases h0 : idx = 0#4
  · simp [WellFormed, Instr.wellFormed, configOperand, h0]
  · by_cases h12 : idx = 1#4 ∨ idx = 2#4
    · rw [configOperand, if_neg h0, if_pos h12, ← BitVec.toNat_inj, BitVec.toNat_setWidth_of_le (by decide),
        BitVec.toNat_setWidth, Nat.mod_eq_iff_lt (by decide)]
      simp [WellFormed, Instr.wellFormed, h0, h12]
    · rw [configOperand, if_neg h0, if_neg h12, eq_comm]
      simp [WellFormed, Instr.wellFormed, h0, h12]

/-- The payload bits are cut out once: the bits past them are 0 already. -/
theorem writePayload_idem (len : BitVec 4) (data : Word64) :
    writePayload len ((writePayload len data).setWidth 64) = writePayload len data := by
  by_cases hlen : 1 ≤ len.toNat ∧ len.toNat ≤ Config.maxLength
  · rw [← BitVec.toNat_inj, writePayload_toNat hlen, BitVec.toNat_setWidth_of_le (by decide),
      writePayload_toNat hlen, Nat.mod_mod]
  · simp only [writePayload_of_illegal hlen]

theorem configOperand_idem (idx : BitVec 4) (data : Word64) :
    configOperand idx (configOperand idx data) = configOperand idx data := by
  unfold configOperand
  split_ifs
  · rfl
  · rw [BitVec.setWidth_setWidth (u := 32) (by decide), BitVec.setWidth_eq]
  · rfl

/-! ### Decoding and encoding -/

/-- Each operand stands whole in a field of its own; the two that decoding may cut stand whole where they are well
formed. -/
theorem decode_encode_of_wellFormed {i : Instr} (h : WellFormed i) : decode (encode i) = .ok i := by
  cases i with
  | decf byte => simp [encode, decode, decodeRequest, BitVec.extractLsb'_setWidth_of_le]
  | wrreg reg len value => simp [encode, decode, decodeRequest, wellFormed_wrreg_iff.1 h]
  | dec24 b1 b2 b3 =>
    obtain ⟨h1, h2, h3⟩ := dec24_operand_bytes b1 b2 b3
    simp [encode, decode, decodeRequest, h1, h2, h3]
  | tovolt code => simp [encode, decode, decodeRequest, BitVec.extractLsb'_setWidth_of_le]
  | setcfg idx value => simp [encode, decode, decodeRequest, wellFormed_setcfg_iff.1 h]
  | readFrame reg => simp [encode, decode, decodeWire]
  | writeFrame reg => simp [encode, decode, decodeWire, opRead, opWrite]
  | fastConversion | fastStandby | fastShutdown | fastFullReset => rfl
  | _ => simp [encode, decode, decodeRequest]

/-- Decoding drops the unused bits (30_encoding.md R79; log 23). -/
theorem decodeRequest_wellFormed (r : Request) : WellFormed (decodeRequest r) := by
  unfold decodeRequest
  split
  case h_5 => exact wellFormed_wrreg_iff.2 (writePayload_idem _ _)
  case h_10 => exact wellFormed_setcfg_iff.2 (configOperand_idem _ _)
  all_goals rfl

/-! ### Used and unused bits -/

theorem writePayload_congr {len : BitVec 4} {data data' : Word64}
    (h : 1 ≤ len.toNat → len.toNat ≤ 4 → data'.toNat % 2 ^ (8 * len.toNat) = data.toNat % 2 ^ (8 * len.toNat)) :
    writePayload len data = writePayload len data' := by
  unfold writePayload
  split_ifs with hlen
  · rw [h hlen.1 hlen.2]
  · rfl

theorem configOperand_congr {idx : BitVec 4} {data data' : Word64} (hscale : idx = 0#4 → data' = data)
    (hcount : idx = 1#4 ∨ idx = 2#4 → data'.extractLsb' 0 32 = data.extractLsb' 0 32) :
    configOperand idx data = configOperand idx data' := by
  unfold configOperand
  split_ifs with h0 h12
  · exact (hscale h0).symm
  · have hlow : data.setWidth 32 = data'.setWidth 32 := by
      simpa only [BitVec.setWidth_eq_extractLsb' (show 32 ≤ 64 by decide)] using (hcount h12).symm
    rw [hlow]
  · rfl

theorem extractLsb'_extractLsb'_add {w start len start' len' : Nat} (x : BitVec w) (h : start' + len' ≤ len) :
    (x.extractLsb' start len).extractLsb' start' len' = x.extractLsb' (start + start') len' := by
  apply BitVec.eq_of_getLsbD_eq
  intro i hi
  simp [hi, show start' + i < len by omega, Nat.add_assoc]

/-- No field of `CTL` lies in its bits 13:0 (30_encoding.md R75). -/
theorem ctl_field_of_low (c : Word32) (low : BitVec 14) {start len : Nat} (h : 14 ≤ start) (h' : start + len ≤ 32) :
    (c.extractLsb' 14 18 ++ low).extractLsb' start len = c.extractLsb' start len := by
  rw [BitVec.extractLsb'_append_eq_of_le h, extractLsb'_extractLsb'_add c (by omega)]
  congr 1
  omega

end Sys2Proof

namespace Sys2Proof.Machine

theorem usedFieldsAgree_low (r : Request) (low : BitVec 14) :
    usedFieldsAgree r { r with ctl := r.ctl.extractLsb' 14 18 ++ low } := by
  unfold usedFieldsAgree
  simp [ctl_field_of_low]

/-- Decoding reads the used fields alone (30_encoding.md R79). -/
theorem decodeRequest_congr {r r' : Request} (h : usedFieldsAgree r r') : decodeRequest r = decodeRequest r' := by
  obtain ⟨hopc, hreg, hdev, hop, hlen, hsel, hbyte, hpayload, hsample, hcode, hvoltage, hscale, hcount⟩ := h
  have hbytes : r.ctl.extractLsb' 28 4 = 0x6#4 → ∀ start, start + 8 ≤ 24 →
      r.data.extractLsb' start 8 = r'.data.extractLsb' start 8 := fun h start hle => by
    rw [← BitVec.extractLsb'_extractLsb'_of_le hle, ← hsample h, BitVec.extractLsb'_extractLsb'_of_le hle]
  have hcase : ∀ n : BitVec 4, (ctlOpc r.ctl).toNat = n.toNat → r.ctl.extractLsb' 28 4 = n := fun _ =>
    BitVec.eq_of_toNat_eq
  unfold decodeRequest
  rw [show ctlOpc r'.ctl = ctlOpc r.ctl from hopc]
  simp only [ctlReg, ctlDev, ctlOp, ctlLen, ctlSel]
  -- Case `h_k` is OPC `k - 1`; the unassigned codes have no operand.
  split
  case h_2 h => rw [hreg (by simp [hcase 0x1#4 h]), hdev (hcase _ h), hop (hcase _ h)]
  case h_3 h => rw [hbyte (hcase _ h)]
  case h_4 h => rw [hreg (by simp [hcase 0x3#4 h]), hlen (by simp [hcase 0x3#4 h])]
  case h_5 h =>
    rw [hreg (by simp [hcase 0x4#4 h]), hlen (by simp [hcase 0x4#4 h]), writePayload_congr (hpayload (hcase _ h))]
  case h_6 h => rw [hsel (hcase _ h)]
  case h_7 h =>
    rw [hbytes (hcase _ h) 16 (by decide), hbytes (hcase _ h) 8 (by decide), hbytes (hcase _ h) 0 (by decide)]
  case h_8 h => rw [hcode (hcase _ h)]
  case h_9 h => rw [hvoltage (hcase _ h), hlen (by simp [hcase 0x8#4 h])]
  case h_10 h =>
    rw [hreg (by simp [hcase 0x9#4 h]), configOperand_congr (hscale (hcase _ h)) (hcount (hcase _ h))]
  case h_11 h => rw [hreg (by simp [hcase 0xA#4 h])]
  all_goals rfl

/-! ### Unassigned codes -/

/-- The operations of the unassigned codes (43_config.md R210). -/
def unassignedInstrs : List Instr :=
  [.unassigned0, .unassignedB, .unassignedC, .unassignedD, .unassignedE, .unassignedF]

theorem decodeRequest_unassigned {r : Request} (h : ctlOpc r.ctl ∈ [0x0#4, 0xB#4, 0xC#4, 0xD#4, 0xE#4, 0xF#4]) :
    decodeRequest r ∈ unassignedInstrs := by
  unfold decodeRequest
  generalize ctlOpc r.ctl = opc at h
  fin_cases h <;> simp [unassignedInstrs]

theorem exec_unassigned_at_idle {i : Instr} {s : State} (hi : i ∈ unassignedInstrs) (hs : s.ph = .idle) :
    exec i s = .next (errored .unknownRequest s) := by
  have h : s.unknownRequest = .next (errored .unknownRequest s) := by
    rw [State.unknownRequest, issue_at_idle s _ hs, takeError_at_idle s _ hs]
  fin_cases hi <;> exact h

/-! ### The request at the port -/

/-- HOST's step depends on the request at its port by what that decodes to. -/
theorem step_host_congr {s : State} {r r' : Request} (rest : List Request) (ha : s.draw.agent = .host)
    (hs : s.ph = .idle) (h : decodeRequest r = decodeRequest r') :
    step { s with requests := r :: rest } = step { s with requests := r' :: rest } := by
  rw [step_host { s with requests := r :: rest } ha hs rfl, step_host { s with requests := r' :: rest } ha hs rfl, h]

/-- Settles O3: `decodeRequest_congr` for the used fields, of which `CTL[13:0]` is none; what is decoded is well formed,
so `decode_encode_of_wellFormed` gives the round trip. -/
theorem unusedRequestBitsAreIgnored : Obligations.UnusedRequestBitsAreIgnored := by
  refine ⟨fun r => ⟨decodeRequest r, rfl⟩, fun r r' hagree => ?_, fun r i hi => ?_, fun r s hs hopc => ?_⟩
  · have hdecode := decodeRequest_congr hagree
    exact ⟨congrArg Except.ok hdecode, fun s rest ha hs => step_host_congr rest ha hs hdecode⟩
  · obtain rfl : decodeRequest r = i := Except.ok.inj hi
    have hwf := decodeRequest_wellFormed r
    exact ⟨hwf, decode_encode_of_wellFormed hwf, fun low =>
      congrArg Except.ok (decodeRequest_congr (usedFieldsAgree_low r low)).symm⟩
  · exact ⟨decodeRequest r, rfl, exec_unassigned_at_idle (decodeRequest_unassigned hopc) hs⟩

end Sys2Proof.Machine
end

section
/-! SUPPORT. The command surface (30_encoding.md R83): `READ` and `WRITE` expand by the catalog width of their register,
to a transfer of a legal length, or for a reserved address to one that is refused. -/

namespace Sys2Proof.Machine

variable {s : State} {reg : BitVec 4}

/-! ### The widths of the catalog (20_memory.md R51) -/

/-- A catalog width is a whole number of bytes, from 1 to 3. -/
theorem catalog_width_bytes {e : CatalogEntry} (he : catalog reg = some e) :
    8 * (e.width / 8) = e.width ∧ 1 ≤ e.width / 8 ∧ e.width / 8 ≤ 3 := by
  have hrom : ∀ reg, ∀ e ∈ catalog reg, 8 * (e.width / 8) = e.width ∧ 1 ≤ e.width / 8 ∧ e.width / 8 ≤ 3 := by
    decide
  exact hrom reg e he

theorem transferError_of_catalog {len : BitVec 4} {e : CatalogEntry} (he : catalog reg = some e)
    (hlen : 1 ≤ len.toNat ∧ len.toNat ≤ Config.maxLength) : transferError reg len = none := by
  simp [transferError, reserved, legalLength, he, hlen]

theorem transferError_of_reserved (hr : catalog reg = none) (len : BitVec 4) :
    transferError reg len = some .invalidRegisterAddress := by
  simp [transferError, reserved, hr]

/-! ### Transfers issued at IDLE -/

/-- A transfer that passes its validation goes to START (41_sequencer.md R121). -/
theorem issueTransfer_starts {len : BitVec 4} (k : TransferKind) (l : List Byte) (h : transferError reg len = none) :
    (s.issueTransfer k reg len l).ph = .start := by
  simp [State.issueTransfer, h]

theorem issueTransfer_refused {len : BitVec 4} {e : Status} (k : TransferKind) (l : List Byte) (hs : s.ph = .idle)
    (h : transferError reg len = some e) : s.issueTransfer k reg len l = errored e s := by
  simp [State.issueTransfer, h, takeError_at_idle s e hs]

/-! ### READ and WRITE -/

/-- `READ` of a register of the catalog is a read of its value bytes and the dummy-clock byte, and starts. -/
theorem expandRead_of_catalog {e : CatalogEntry} (he : catalog reg = some e) (hs : s.ph = .idle) :
    ∃ (len : BitVec 4) (t : State), expandRead reg = .rdreg reg len ∧ len.toNat = e.width / 8 + 1 ∧
      exec (.rdreg reg len) s = .next t ∧ t.ph = .start := by
  obtain ⟨-, -, hmax⟩ := catalog_width_bytes he
  have hlen : (BitVec.ofNat 4 (e.width / 8 + 1)).toNat = e.width / 8 + 1 := by
    rw [BitVec.toNat_ofNat, Nat.mod_eq_of_lt (by omega)]
  have hlegal : 1 ≤ (BitVec.ofNat 4 (e.width / 8 + 1)).toNat ∧
      (BitVec.ofNat 4 (e.width / 8 + 1)).toNat ≤ Config.maxLength := by
    rw [hlen]
    exact ⟨by omega, Nat.succ_le_succ hmax⟩
  exact ⟨_, _, by simp [expandRead, fittingLength, he], hlen, issue_at_idle s _ hs,
    issueTransfer_starts _ _ (transferError_of_catalog he hlegal)⟩

/-- `WRITE` of a register of the catalog is a write of as many low bits of the value as the register holds, and starts. -/
theorem expandWrite_of_catalog {e : CatalogEntry} (he : catalog reg = some e) (v : Word32) (hs : s.ph = .idle) :
    ∃ (n : BitVec 4) (w : Word32) (t : State), expandWrite reg v = .wrreg reg n w ∧ n.toNat = e.width / 8 ∧
      w.toNat = v.toNat % 2 ^ e.width ∧ exec (.wrreg reg n w) s = .next t ∧ t.ph = .start := by
  obtain ⟨hbytes, hmin, hmax⟩ := catalog_width_bytes he
  have hn : (writeLength reg).toNat = e.width / 8 := by
    rw [writeLength, he, Option.map_some, Option.getD_some, BitVec.toNat_ofNat, Nat.mod_eq_of_lt (by omega)]
  have hlen : 1 ≤ (writeLength reg).toNat ∧ (writeLength reg).toNat ≤ Config.maxLength := by
    rw [hn]
    exact ⟨hmin, hmax.trans (by decide)⟩
  have hw : (writePayload (writeLength reg) (v.setWidth 64)).toNat = v.toNat % 2 ^ e.width := by
    rw [writePayload_toNat hlen, hn, hbytes, BitVec.toNat_setWidth_of_le (by decide)]
  exact ⟨_, _, _, rfl, hn, hw, issue_at_idle s _ hs, issueTransfer_starts _ _ (transferError_of_catalog he hlen)⟩

theorem expandRead_of_reserved (hr : catalog reg = none) : expandRead reg = .rdreg reg 1#4 := by
  simp [expandRead, fittingLength, hr]

theorem expandWrite_of_reserved (hr : catalog reg = none) (v : Word32) :
    ∃ w : Word32, w.toNat = v.toNat % 2 ^ 8 ∧ expandWrite reg v = .wrreg reg 1#4 w := by
  refine ⟨writePayload 1#4 (v.setWidth 64), ?_, by simp [expandWrite, writeLength, hr]⟩
  rw [writePayload_toNat (by decide), BitVec.toNat_setWidth_of_le (by decide)]
  rfl

/-- Settles O50: a register of the catalog by `expandRead_of_catalog` and `expandWrite_of_catalog`, a reserved address
by `issueTransfer_refused`; the table of fitting lengths and the commands without a register by computation. -/
theorem commandsExpandToRequests : Obligations.CommandsExpandToRequests := by
  refine ⟨fun reg v s hs => ?_, by decide, rfl, rfl, rfl, rfl, by decide⟩
  cases hreg : catalog reg with
  | some e =>
    obtain ⟨len, t, hread, hlen, hexec, hstart⟩ := expandRead_of_catalog hreg hs
    obtain ⟨n, w, u, hwrite, hn, hw, hexec', hstart'⟩ := expandWrite_of_catalog hreg v hs
    refine ⟨_, _, t, u, by rw [expand, hread], by rw [expand, hwrite], hexec, hexec', ?_, by simp⟩
    rintro _ ⟨⟩
    exact ⟨⟨len, hlen, rfl⟩, ⟨n, w, hn, hw, rfl⟩, hstart, hstart'⟩
  | none =>
    obtain ⟨w, hw, hwrite⟩ := expandWrite_of_reserved hreg v
    have hrefused := fun k l => issueTransfer_refused k l hs (transferError_of_reserved hreg 1#4)
    refine ⟨.rdreg reg 1#4, .wrreg reg 1#4 w, _, _, by rw [expand, expandRead_of_reserved hreg],
      by rw [expand, hwrite], issue_at_idle s _ hs, issue_at_idle s _ hs, by simp, fun _ => ?_⟩
    exact ⟨rfl, ⟨w, hw, rfl⟩, hrefused _ _, hrefused _ _⟩

end Sys2Proof.Machine
end

section
/-! SUPPORT. The command frame codec (40_codec.md): what `ENCF` and `DECF` answer in each case of their common check
(R103), the numbers and the fields of their results, and that the two are inverse to each other (R106). -/

namespace Sys2Proof.Machine

variable {s t : State}

/-! ### The requests -/

theorem decodeRequest_encf {r : Request} (h : ctlOpc r.ctl = 0x1#4) :
    decodeRequest r = .encf (ctlReg r.ctl) (ctlDev r.ctl) (ctlOp r.ctl) := by
  simp [decodeRequest, h]

theorem decodeRequest_decf {r : Request} (h : ctlOpc r.ctl = 0x2#4) :
    decodeRequest r = .decf (r.data.extractLsb' 0 8) := by
  simp [decodeRequest, h]

/-! ### The response registers after a response -/

@[simp] theorem responded_ph (e : Status) (d : Word64) (a : Byte) (s : State) : (responded e d a s).ph = .idle := rfl

@[simp] theorem responded_respStatus (e : Status) (d : Word64) (a : Byte) (s : State) :
    (responded e d a s).respStatus = e := rfl

@[simp] theorem responded_respData (e : Status) (d : Word64) (a : Byte) (s : State) :
    (responded e d a s).respData = d := rfl

/-! ### The common check and its outcomes (R103) -/

theorem codecError_of_wrongDevice {dev : BitVec 2} (hdev : dev ≠ Config.deviceAddress) (op : BitVec 2) :
    codecError dev op = some .invalidDeviceAddress :=
  if_pos hdev

theorem codecError_of_wrongOperation {op : BitVec 2} (hop : op = 0b00#2 ∨ op = 0b11#2) :
    codecError Config.deviceAddress op = some .invalidOperationType := by
  obtain rfl | rfl := hop <;> rfl

theorem codecError_eq_none_iff {dev op : BitVec 2} :
    codecError dev op = none ↔ dev = Config.deviceAddress ∧ (op = opRead ∨ op = opWrite) := by
  revert dev op
  decide

theorem issue_codecResult_of_none {dev op : BitVec 2} (d : Word64) (hs : s.ph = .idle) (h : codecError dev op = none) :
    s.issue (s.codecResult dev op d) = .next (responded .ok d 0#8 s) := by
  simp [State.codecResult, h, hs, finish_eq_responded]

theorem issue_codecResult_of_some {dev op : BitVec 2} {e : Status} (d : Word64) (hs : s.ph = .idle)
    (h : codecError dev op = some e) : s.issue (s.codecResult dev op d) = .next (errored e s) := by
  simp [State.codecResult, h, hs, takeError_at_idle s e hs]

/-- No check of the codec fails with the status of success. -/
theorem codecError_ne_ok (dev op : BitVec 2) : codecError dev op ≠ some .ok := by
  revert dev op
  decide

/-- A codec request that answers ok was issued at IDLE, passed the check, and left its result. -/
theorem issue_codecResult_ok {dev op : BitVec 2} {d : Word64} (h : s.issue (s.codecResult dev op d) = .next t)
    (hok : t.respStatus = .ok) : codecError dev op = none ∧ t = responded .ok d 0#8 s := by
  obtain ⟨hs, -⟩ := (issue_next_iff _ _ _).1 h
  cases he : codecError dev op with
  | none =>
    rw [issue_codecResult_of_none d hs he] at h
    exact ⟨rfl, (Host.Outcome.next.inj h).symm⟩
  | some e =>
    rw [issue_codecResult_of_some d hs he] at h
    obtain rfl := Host.Outcome.next.inj h
    exact absurd (he.trans (congrArg some hok)) (codecError_ne_ok dev op)

/-! ### ENCF and DECF at IDLE -/

theorem exec_encf_of_error {reg : BitVec 4} {dev op : BitVec 2} {e : Status} (hs : s.ph = .idle)
    (h : codecError dev op = some e) : exec (.encf reg dev op) s = .next (errored e s) :=
  issue_codecResult_of_some _ hs h

theorem exec_decf_of_error {b : Byte} {e : Status} (hs : s.ph = .idle)
    (h : codecError (frameDev b) (frameOp b) = some e) : exec (.decf b) s = .next (errored e s) :=
  issue_codecResult_of_some _ hs h

theorem exec_decf_at_idle {b : Byte} (hs : s.ph = .idle) (hdev : frameDev b = Config.deviceAddress)
    (hop : frameOp b = opRead ∨ frameOp b = opWrite) :
    exec (.decf b) s =
      .next (responded .ok (packTriple Config.deviceAddress (frameReg b) (frameOp b)) 0#8 s) := by
  rw [← hdev]
  exact issue_codecResult_of_none _ hs (codecError_eq_none_iff.2 ⟨hdev, hop⟩)

/-- Decoding a frame of the block's device gives its fields. -/
theorem exec_decf_frame (reg : BitVec 4) {op : BitVec 2} (hs : s.ph = .idle) (hop : op = opRead ∨ op = opWrite) :
    exec (.decf (frame Config.deviceAddress reg op)) s =
      .next (responded .ok (packTriple Config.deviceAddress reg op) 0#8 s) := by
  simpa using exec_decf_at_idle (b := frame Config.deviceAddress reg op) hs (by simp) (by simpa using hop)

theorem exec_encf_ok {reg : BitVec 4} {dev op : BitVec 2} (h : exec (.encf reg dev op) s = .next t)
    (hok : t.respStatus = .ok) : t = responded .ok ((frame dev reg op).setWidth 64) 0#8 s :=
  (issue_codecResult_ok h hok).2

theorem exec_decf_ok {b : Byte} (h : exec (.decf b) s = .next t) (hok : t.respStatus = .ok) :
    (frameDev b = Config.deviceAddress ∧ (frameOp b = opRead ∨ frameOp b = opWrite)) ∧
      t = responded .ok (packTriple (frameDev b) (frameReg b) (frameOp b)) 0#8 s := by
  obtain ⟨hnone, ht⟩ := issue_codecResult_ok h hok
  exact ⟨codecError_eq_none_iff.1 hnone, ht⟩

/-! ### The results as numbers -/

theorem frame_setWidth_eq_ofNat (dev : BitVec 2) (reg : BitVec 4) (op : BitVec 2) :
    (frame dev reg op).setWidth 64 = BitVec.ofNat 64 (dev.toNat * 64 + reg.toNat * 4 + op.toNat) := by
  revert dev reg op
  decide

theorem packTriple_eq_ofNat (reg : BitVec 4) (op : BitVec 2) :
    packTriple Config.deviceAddress reg op = BitVec.ofNat 64 (0x10000 + reg.toNat * 0x100 + op.toNat) := by
  revert reg op
  decide

/-! ### The fields of the results -/

theorem extractLsb'_setWidth_low {m n : Nat} (h : n ≤ m) (x : BitVec n) : (x.setWidth m).extractLsb' 0 n = x := by
  simp [BitVec.extractLsb'_setWidth_of_le, h]

/-- Each field has a byte of the triple (R105). -/
theorem packTriple_bytes (dev : BitVec 2) (reg : BitVec 4) (op : BitVec 2) :
    (packTriple dev reg op).extractLsb' 16 8 = dev.setWidth 8 ∧
    (packTriple dev reg op).extractLsb' 8 8 = reg.setWidth 8 ∧
    (packTriple dev reg op).extractLsb' 0 8 = op.setWidth 8 :=
  dec24_operand_bytes _ _ _

/-- A field is the low end of the byte that holds it. -/
theorem extractLsb'_of_byte {n start : Nat} {x : Word64} {field : BitVec n} (hn : n ≤ 8)
    (h : x.extractLsb' start 8 = field.setWidth 8) : x.extractLsb' start n = field := by
  have hlow : (x.extractLsb' start 8).extractLsb' 0 n = x.extractLsb' start n :=
    extractLsb'_extractLsb'_add x (by omega)
  rw [← hlow, h, extractLsb'_setWidth_low hn]

theorem packTriple_fields (dev : BitVec 2) (reg : BitVec 4) (op : BitVec 2) :
    (packTriple dev reg op).extractLsb' 16 2 = dev ∧
    (packTriple dev reg op).extractLsb' 8 4 = reg ∧
    (packTriple dev reg op).extractLsb' 0 2 = op := by
  obtain ⟨hdev, hreg, hop⟩ := packTriple_bytes dev reg op
  exact ⟨extractLsb'_of_byte (by decide) hdev, extractLsb'_of_byte (by decide) hreg,
    extractLsb'_of_byte (by decide) hop⟩

/-! ### The two are inverse to each other (R106) -/

theorem decf_of_encf (reg : BitVec 4) {op : BitVec 2} (hs : s.ph = .idle) (hop : op = opRead ∨ op = opWrite) :
    ∃ t, exec (.encf reg Config.deviceAddress op) s = .next t ∧ t.respStatus = .ok ∧
      exec (.decf (t.respData.extractLsb' 0 8)) t =
        .next (responded .ok (packTriple Config.deviceAddress reg op) 0#8 t) := by
  refine ⟨_, exec_encf_at_idle reg hs hop, responded_respStatus .., ?_⟩
  rw [responded_respData, extractLsb'_setWidth_low (by decide)]
  exact exec_decf_frame reg (responded_ph ..) hop

theorem encf_of_decf {b : Byte} (hdecf : exec (.decf b) s = .next t) (hok : t.respStatus = .ok) :
    exec (.encf (t.respData.extractLsb' 8 4) (t.respData.extractLsb' 16 2) (t.respData.extractLsb' 0 2)) t =
      .next (responded .ok (b.setWidth 64) 0#8 t) := by
  obtain ⟨⟨hdev, hop⟩, rfl⟩ := exec_decf_ok hdecf hok
  obtain ⟨hdev', hreg', hop'⟩ := packTriple_fields (frameDev b) (frameReg b) (frameOp b)
  rw [responded_respData, hdev', hreg', hop', hdev, exec_encf_at_idle (frameReg b) (responded_ph ..) hop, ← hdev,
    frame_of_fields]

theorem encf_injective {t' : State} {reg reg' : BitVec 4} {dev op op' : BitVec 2}
    (hencf : exec (.encf reg dev op) s = .next t) (hencf' : exec (.encf reg' dev op') s = .next t')
    (hok : t.respStatus = .ok) (hok' : t'.respStatus = .ok) (hdata : t.respData = t'.respData) :
    reg = reg' ∧ op = op' := by
  have hframe : frame dev reg op = frame dev reg' op' := by
    rw [exec_encf_ok hencf hok, exec_encf_ok hencf' hok', responded_respData, responded_respData] at hdata
    simpa [extractLsb'_setWidth_low] using congrArg (BitVec.extractLsb' 0 8) hdata
  exact ⟨by simpa using congrArg frameReg hframe, by simpa using congrArg frameOp hframe⟩

/-- Settles O8: the three parts are `decf_of_encf`, whose triple `packTriple_bytes` takes apart, `encf_of_decf` and
`encf_injective`. -/
theorem frameRoundTrip : Obligations.FrameRoundTrip := by
  refine ⟨fun reg op s hs hop => ?_, fun b s t hdecf hok => ?_,
    fun reg reg' op op' s t t' hencf hencf' hok hok' hdata => encf_injective hencf hencf' hok hok' hdata⟩
  · obtain ⟨t, hencf, hok, hdecf⟩ := decf_of_encf reg hs hop
    exact ⟨t, _, hencf, hok, hdecf, responded_respStatus .., packTriple_bytes Config.deviceAddress reg op⟩
  · exact ⟨_, encf_of_decf hdecf hok, responded_respStatus .., responded_respData ..⟩

/-- Settles O6: an accepted frame by `exec_encf_at_idle`, the two errors by `exec_encf_of_error`. -/
theorem encfPacksAFrame : Obligations.EncfPacksAFrame := by
  rintro r s reg dev op hopc rfl rfl rfl hs
  refine ⟨congrArg _ (decodeRequest_encf hopc), fun hdev hop => ?_, fun hdev => ?_, fun hdev hop => ?_⟩
  · rw [hdev, ← frame_setWidth_eq_ofNat]
    exact exec_encf_at_idle _ hs hop
  · exact exec_encf_of_error hs (codecError_of_wrongDevice hdev _)
  · rw [hdev]
    exact exec_encf_of_error hs (codecError_of_wrongOperation hop)

/-- Settles O7: an accepted byte by `exec_decf_at_idle`, the two errors by `exec_decf_of_error`. -/
theorem decfUnpacksAFrame : Obligations.DecfUnpacksAFrame := by
  rintro r s b hopc rfl hs
  refine ⟨congrArg _ (decodeRequest_decf hopc), fun hdev hop => ?_, fun hdev => ?_, fun hdev hop => ?_⟩
  · rw [← packTriple_eq_ofNat]
    exact exec_decf_at_idle hs hdev hop
  · exact exec_decf_of_error hs (codecError_of_wrongDevice hdev _)
  · refine exec_decf_of_error hs ?_
    rw [show frameDev _ = _ from hdev]
    exact codecError_of_wrongOperation hop

end Sys2Proof.Machine
end

section
/-! SUPPORT. SEQ's turn (41_sequencer.md R130 to R143): an equation for each phase, a wait that is over and one that is
not, and the inversion of the turn into the five things it can do. -/

namespace Sys2Proof.Machine

variable {s : State}

/-! ### Each phase -/

theorem seqMove_idle (hs : s.ph = .idle) : s.seqMove = s := by
  simp [State.seqMove, hs]

theorem seqMove_start (hs : s.ph = .start) :
    s.seqMove = afterAnswer .wr [s.tx.s0] (if s.tKind = .fast then .final else .wtx1) s.tpAnswer s := by
  simp [State.seqMove, hs, State.seqStart, submitPhase_eq_afterAnswer]

theorem seqMove_wtx1 (hs : s.ph = .wtx1) (hidle : s.tpTxBusy = false) : s.seqMove = { s with ph := .p2 } := by
  simp [State.seqMove, hs, State.seqWtx1, hidle]

theorem seqMove_p2_read (hs : s.ph = .p2) (hk : s.tKind = .read) :
    s.seqMove = afterAnswer .wrrd (phase2Bytes s.tx s.tLen) .final s.tpAnswer s := by
  simp [State.seqMove, hs, State.seqP2, hk, submitPhase_eq_afterAnswer]

theorem seqMove_p2_write (hs : s.ph = .p2) (hk : s.tKind ≠ .read) :
    s.seqMove = afterAnswer .wr (phase2Bytes s.tx s.tLen) .wtx2 s.tpAnswer s := by
  simp [State.seqMove, hs, State.seqP2, hk, submitPhase_eq_afterAnswer]

theorem seqMove_wtx2 (hs : s.ph = .wtx2) (hidle : s.tpTxBusy = false) :
    s.seqMove = { s with pollCnt := 0#32, ph := .final } := by
  simp [State.seqMove, hs, State.seqWtx2, hidle]

theorem seqMove_final (hs : s.ph = .final) (hdone : s.done = true) (hbusy : s.tpBusy = false) :
    s.seqMove = s.release := by
  simp [State.seqMove, hs, State.seqFinal, hdone, hbusy]

/-- A wait whose condition is false (41_sequencer.md R142, R143). -/
theorem seqMove_of_waiting (hw : waiting s.ph = true) (hover : waitOver s = false) : s.seqMove = heldOrPolled s := by
  cases hs : s.ph <;> simp only [hs, waiting, waitOver, Bool.not_eq_false', reduceCtorEq] at hw hover
  case wtx1 => simp [State.seqMove, hs, State.seqWtx1, hover, pollOrHold_eq_heldOrPolled]
  case wtx2 => simp [State.seqMove, hs, State.seqWtx2, hover, pollOrHold_eq_heldOrPolled]
  case final =>
    have hfinal : ¬ (s.done = true ∧ s.tpBusy = false) := by simpa using hover
    simp [State.seqMove, hs, State.seqFinal, hfinal, pollOrHold_eq_heldOrPolled]

/-! ### The release -/

theorem release_of_read (hk : s.tKind = .read) :
    s.release = responded .ok ((readValue s.rx s.tLen).setWidth 64) (s.tLen.setWidth 8 - 1#8)
      (deselected { s with done := false }) := by
  simp [State.release, hk, setCs_false_eq_deselected, finish_eq_responded]

theorem release_of_not_read (hk : s.tKind ≠ .read) :
    s.release = responded .ok 0#64 0#8 (deselected { s with done := false }) := by
  simp [State.release, hk, setCs_false_eq_deselected, finish_eq_responded]

/-! ### The inversion of SEQ's turn -/

/-- What a turn of SEQ can do: wait, with or without a poll; go on where a wait is over; submit; end the transaction with
a response; or end it at the poll limit. -/
inductive SeqEffect (s : State) : State → Prop where
  | waits (c : Word32) : SeqEffect s { s with pollCnt := c }
  | advances (c : Word32) (p : Phase) (hp : p = .p2 ∨ (p = .final ∧ c = 0#32)) :
      SeqEffect s { s with pollCnt := c, ph := p }
  | submits (k : SubmitKind) (l : List Byte) (p : Phase) (hs : s.ph = .start ∨ s.ph = .p2)
      (hp : p = .wtx2 → s.ph = .p2 ∧ s.tKind ≠ .read) : SeqEffect s (afterAnswer k l p s.tpAnswer s)
  | releases (d : Word64) (a : Byte) : SeqEffect s (responded .ok d a (deselected { s with done := false }))
  | timesOut (c : Word32) : SeqEffect s (errored .transportTimeout (deselected { s with pollCnt := c }))

theorem seqEffect_heldOrPolled (s : State) : SeqEffect s (heldOrPolled s) := by
  unfold heldOrPolled
  split_ifs
  · exact .waits s.pollCnt
  · exact .waits _
  · exact .timesOut _

theorem seqEffect_release (s : State) : SeqEffect s s.release := by
  by_cases hk : s.tKind = .read
  · rw [release_of_read hk]
    exact .releases _ _
  · rw [release_of_not_read hk]
    exact .releases _ _

theorem seqMove_cases (s : State) : SeqEffect s s.seqMove := by
  by_cases hwait : waiting s.ph = true ∧ waitOver s = false
  · rw [seqMove_of_waiting hwait.1 hwait.2]
    exact seqEffect_heldOrPolled s
  cases hs : s.ph <;> simp only [hs, waiting, waitOver, true_and, Bool.not_eq_false, Bool.not_eq_true',
    Bool.and_eq_true] at hwait
  case idle =>
    rw [seqMove_idle hs]
    exact .waits s.pollCnt
  case start =>
    rw [seqMove_start hs]
    exact .submits _ _ _ (.inl hs) (by split <;> simp)
  case wtx1 =>
    rw [seqMove_wtx1 hs hwait]
    exact .advances s.pollCnt _ (.inl rfl)
  case p2 =>
    by_cases hk : s.tKind = .read
    · rw [seqMove_p2_read hs hk]
      exact .submits _ _ _ (.inr hs) (by simp)
    · rw [seqMove_p2_write hs hk]
      exact .submits _ _ _ (.inr hs) fun _ => ⟨hs, hk⟩
  case wtx2 =>
    rw [seqMove_wtx2 hs hwait]
    exact .advances _ _ (.inr ⟨rfl, rfl⟩)
  case final =>
    rw [seqMove_final hs hwait.1 hwait.2]
    exact seqEffect_release s

end Sys2Proof.Machine
end

section
/-! SUPPORT. TP's turn (41_sequencer.md R125, R126): what it leaves unchanged, and what it appends to the trace. -/

namespace Sys2Proof.Machine

variable {s : State}

/-- TP's turn writes its two signals, `DONE`, `RX` and the trace only. -/
theorem tpMove_eq (s : State) :
    s.tpMove = { s with
      tpBusy := s.tpMove.tpBusy
      tpTxBusy := s.tpMove.tpTxBusy
      done := s.tpMove.done
      rx := s.tpMove.rx
      trace := s.tpMove.trace } := by
  obtain ⟨-, h⟩ | ⟨-, -, h⟩ | ⟨-, -, h⟩ := tpMove_cases s <;> rw [h]
  rw [tpComplete_eq]

@[simp] theorem tpMove_ph (s : State) : s.tpMove.ph = s.ph := by rw [tpMove_eq]

@[simp] theorem tpMove_cs (s : State) : s.tpMove.cs = s.cs := by rw [tpMove_eq]

/-- TP appends nothing but a capture. -/
theorem tpMove_trace (s : State) : s.tpMove.trace = s.trace ∨ ∃ l, s.tpMove.trace = s.trace ++ [.cap l] := by
  obtain ⟨-, h⟩ | ⟨-, -, h⟩ | ⟨-, -, h⟩ := tpMove_cases s <;> rw [h]
  · exact .inl rfl
  · unfold State.tpComplete
    split
    · exact .inr ⟨_, rfl⟩
    · exact .inl rfl
  · exact .inl rfl

end Sys2Proof.Machine
end

section
/-! SUPPORT. Chip-select and submissions over a step (41_sequencer.md R124, R128): when `CS` rises and falls, that each
operation keeps the trace paired, and that SEQ's turn at START or P2 alone submits. -/

namespace Sys2Proof.Machine

variable {s t u : State}

/-! ### When chip-select changes -/

/-- `CS` is as it was, or a transaction has just ended with a response. -/
def KeepsOrReleasesCs (s u : State) : Prop :=
  u.cs = s.cs ∨ (u.cs = false ∧ u.ph = .idle ∧ u.respValid = true)

theorem seqEffect_cs (h : SeqEffect s u) : KeepsOrReleasesCs s u := by
  cases h with
  | waits _ => exact .inl rfl
  | advances _ _ _ => exact .inl rfl
  | submits k l p _ _ =>
    cases s.tpAnswer with
    | accepted => exact .inl rfl
    | busy | fail => exact .inr ⟨rfl, rfl, rfl⟩
  | releases _ _ => exact .inr ⟨rfl, rfl, rfl⟩
  | timesOut _ => exact .inr ⟨rfl, rfl, rfl⟩

/-- A request leaves `CS`, or is a transaction and asserts it. -/
theorem requestEffect_cs (h : RequestEffect s u) : u.cs = s.cs ∨ (u.cs = true ∧ u.ph = .start) := by
  cases h with
  | responds s' e d a hcfg _ =>
    obtain rfl | ⟨x, y, z, rfl⟩ := hcfg <;> exact .inl rfl
  | accepts k n tx _ _ _ => exact .inr ⟨rfl, rfl⟩

/-- Over a step `CS` stays, rises at HOST's issue of a transaction, or falls with a response or a reset. -/
theorem step_cs_cases (h : step s = .next t) :
    t.cs = s.cs ∨ (t.cs = true ∧ s.draw.agent = .host ∧ s.ph = .idle ∧ t.ph = .start) ∨
      (t.cs = false ∧ t.ph = .idle ∧ (s.draw.agent = .rst ∨ t.respValid = true)) := by
  obtain ⟨u, rfl, hu⟩ := step_effect s h
  cases hu with
  | waits _ => exact .inl rfl
  | issues r rest _ ha hs _ _ he =>
    obtain hkeep | ⟨hcs, hph⟩ := requestEffect_cs he
    · exact .inl hkeep
    · exact .inr (.inl ⟨hcs, ha, hs, hph⟩)
  | sequences _ =>
    obtain hkeep | ⟨hcs, hph, hvalid⟩ := seqEffect_cs (seqMove_cases s)
    · exact .inl hkeep
    · exact .inr (.inr ⟨hcs, hph, .inr hvalid⟩)
  | transports _ => exact .inl (tpMove_cs s)
  | resets ha => exact .inr (.inr ⟨rfl, rfl, .inl ha⟩)

/-! ### The pairing, operation by operation -/

/-- Events that are no change of chip-select keep the pairing. -/
theorem chipSelectPaired_of_append {ev : List Event} (hs : chipSelectPaired s) (htrace : u.trace = s.trace ++ ev)
    (hcs : u.cs = s.cs) (hup : Event.csUp ∉ ev) (hdown : Event.csDown ∉ ev) : chipSelectPaired u := by
  unfold chipSelectPaired at *
  rw [htrace, hcs, List.count_append, List.count_append, List.count_eq_zero.2 hup, List.count_eq_zero.2 hdown]
  exact hs

theorem chipSelectPaired_of_unchanged (hs : chipSelectPaired s) (htrace : u.trace = s.trace) (hcs : u.cs = s.cs) :
    chipSelectPaired u :=
  chipSelectPaired_of_append (ev := []) hs (by simp [htrace]) hcs (by simp) (by simp)

theorem chipSelectPaired_responded (e : Status) (d : Word64) (a : Byte) (hs : chipSelectPaired s) :
    chipSelectPaired (responded e d a s) :=
  chipSelectPaired_of_append hs rfl rfl (by simp) (by simp)

theorem chipSelectPaired_submitted (k : SubmitKind) (l : List Byte) (a : Answer) (hs : chipSelectPaired s) :
    chipSelectPaired (submitted k l a s) := by
  cases a <;> exact chipSelectPaired_of_append hs rfl rfl (by simp) (by simp)

theorem chipSelectPaired_deselected (hs : chipSelectPaired s) : chipSelectPaired (deselected s) := by
  unfold chipSelectPaired at *
  cases hcs : s.cs <;> simp_all [deselected]

theorem chipSelectPaired_accepted (k : TransferKind) (n : BitVec 3) (tx : Buffer) (hs : chipSelectPaired s) :
    chipSelectPaired (accepted k n tx s) := by
  unfold chipSelectPaired at *
  cases hcs : s.cs <;> simp_all [accepted]

theorem chipSelectPaired_rstMove (hs : chipSelectPaired s) : chipSelectPaired s.rstMove := by
  unfold State.rstMove
  rw [setCs_false_eq_deselected]
  exact chipSelectPaired_deselected (chipSelectPaired_of_unchanged hs rfl rfl)

theorem chipSelectPaired_seqEffect (h : SeqEffect s u) (hs : chipSelectPaired s) : chipSelectPaired u := by
  cases h with
  | waits _ => exact chipSelectPaired_of_unchanged hs rfl rfl
  | advances _ _ _ => exact chipSelectPaired_of_unchanged hs rfl rfl
  | submits k l p _ _ =>
    have hsub := fun a => chipSelectPaired_submitted k l a hs
    cases s.tpAnswer with
    | accepted => exact chipSelectPaired_of_unchanged (hsub .accepted) rfl rfl
    | busy => exact chipSelectPaired_responded _ _ _ (chipSelectPaired_deselected (hsub .busy))
    | fail => exact chipSelectPaired_responded _ _ _ (chipSelectPaired_deselected (hsub .fail))
  | releases _ _ =>
    exact chipSelectPaired_responded _ _ _ (chipSelectPaired_deselected (chipSelectPaired_of_unchanged hs rfl rfl))
  | timesOut _ =>
    exact chipSelectPaired_responded _ _ _ (chipSelectPaired_deselected (chipSelectPaired_of_unchanged hs rfl rfl))

theorem chipSelectPaired_tpMove (hs : chipSelectPaired s) : chipSelectPaired s.tpMove := by
  obtain htrace | ⟨l, htrace⟩ := tpMove_trace s
  · exact chipSelectPaired_of_unchanged hs htrace (tpMove_cs s)
  · exact chipSelectPaired_of_append hs htrace (tpMove_cs s) (by simp) (by simp)

theorem chipSelectPaired_requestEffect (h : RequestEffect s u) (hs : chipSelectPaired s) : chipSelectPaired u := by
  cases h with
  | responds s' e d a hcfg _ =>
    refine chipSelectPaired_responded e d a ?_
    obtain rfl | ⟨x, y, z, rfl⟩ := hcfg
    · exact hs
    · exact chipSelectPaired_of_unchanged hs rfl rfl
  | accepts k n tx _ _ _ => exact chipSelectPaired_accepted k n tx hs

theorem step_keeps_chipSelectPaired (hs : chipSelectPaired s) (h : step s = .next t) : chipSelectPaired t := by
  obtain ⟨u, rfl, hu⟩ := step_effect s h
  refine chipSelectPaired_of_unchanged (s := u) ?_ rfl rfl
  cases hu with
  | waits _ => exact hs
  | issues r rest _ _ _ _ _ he =>
    exact chipSelectPaired_requestEffect he (chipSelectPaired_of_unchanged hs rfl rfl)
  | sequences _ => exact chipSelectPaired_seqEffect (seqMove_cases s) hs
  | transports _ => exact chipSelectPaired_tpMove hs
  | resets _ => exact chipSelectPaired_rstMove hs

/-! ### Who submits -/

/-- From `s` to `u` events were appended, and none of them is a submission. -/
def SubmitsNothing (s u : State) : Prop :=
  ∃ ev, u.trace = s.trace ++ ev ∧ ∀ k l a, Event.sub k l a ∉ ev

theorem submitsNothing_of_unchanged (h : u.trace = s.trace) : SubmitsNothing s u :=
  ⟨[], by simp [h], by simp⟩

theorem submitsNothing_responded (e : Status) (d : Word64) (a : Byte) (h : SubmitsNothing s u) :
    SubmitsNothing s (responded e d a u) := by
  obtain ⟨ev, htrace, hev⟩ := h
  exact ⟨ev ++ [.resp e d a], by simp [responded, htrace], by simpa using hev⟩

theorem submitsNothing_deselected (h : u.trace = s.trace) : SubmitsNothing s (deselected u) :=
  ⟨if u.cs then [.csDown] else [], by simp [deselected, h], by cases u.cs <;> simp⟩

theorem submitsNothing_requestEffect (h : RequestEffect s u) : SubmitsNothing s u := by
  cases h with
  | responds s' e d a hcfg _ =>
    refine submitsNothing_responded e d a (submitsNothing_of_unchanged ?_)
    obtain rfl | ⟨x, y, z, rfl⟩ := hcfg <;> rfl
  | accepts k n tx _ _ _ => exact ⟨_, rfl, by cases s.cs <;> simp⟩

theorem submitsNothing_tpMove (s : State) : SubmitsNothing s s.tpMove := by
  obtain htrace | ⟨l, htrace⟩ := tpMove_trace s
  · exact submitsNothing_of_unchanged htrace
  · exact ⟨_, htrace, by simp⟩

/-- From `s` to `u` SEQ submitted and acted on TP's answer. -/
def SubmitsByPhase (s u : State) : Prop :=
  (s.ph = .start ∨ s.ph = .p2) ∧ ∃ k l p, u = afterAnswer k l p s.tpAnswer s

theorem seqEffect_submits (h : SeqEffect s u) : SubmitsNothing s u ∨ SubmitsByPhase s u := by
  cases h with
  | waits _ => exact .inl (submitsNothing_of_unchanged rfl)
  | advances _ _ _ => exact .inl (submitsNothing_of_unchanged rfl)
  | submits k l p hs _ => exact .inr ⟨hs, k, l, p, rfl⟩
  | releases _ _ => exact .inl (submitsNothing_responded _ _ _ (submitsNothing_deselected rfl))
  | timesOut _ => exact .inl (submitsNothing_responded _ _ _ (submitsNothing_deselected rfl))

theorem step_submits (h : step s = .next t) : ∃ u, t = u.redraw ∧ (SubmitsNothing s u ∨ SubmitsByPhase s u) := by
  obtain ⟨u, rfl, hu⟩ := step_effect s h
  refine ⟨u, rfl, ?_⟩
  cases hu with
  | waits _ => exact .inl (submitsNothing_of_unchanged rfl)
  | issues r rest _ _ _ _ _ he =>
    have hnone := submitsNothing_requestEffect he
    exact .inl hnone
  | sequences _ => exact seqEffect_submits (seqMove_cases s)
  | transports _ => exact .inl (submitsNothing_tpMove s)
  | resets _ => exact .inl ⟨_, State.rstMove_trace s, by cases s.cs <;> simp⟩

@[simp] theorem submitted_trace (k : SubmitKind) (l : List Byte) (a : Answer) (s : State) :
    (submitted k l a s).trace = s.trace ++ [.sub k l a] := by
  cases a <;> rfl

/-- An error that ends a transaction submits nothing. -/
theorem submitsNothing_ended (e : Status) (s : State) : SubmitsNothing s (errored e (deselected s)) :=
  submitsNothing_responded e _ _ (submitsNothing_deselected rfl)

/-- What SEQ's submission appends: the submission, and on a denial the end of the transaction. -/
theorem afterAnswer_trace (k : SubmitKind) (l : List Byte) (p : Phase) (a : Answer) (s : State) :
    ∃ ev, (afterAnswer k l p a s).trace = s.trace ++ .sub k l a :: ev ∧ ∀ k l a, Event.sub k l a ∉ ev := by
  cases a with
  | accepted => exact ⟨[], rfl, by simp⟩
  | busy =>
    obtain ⟨ev, htrace, hnone⟩ := submitsNothing_ended .transportBusy (submitted k l .busy s)
    exact ⟨ev, htrace.trans (by simp), hnone⟩
  | fail =>
    obtain ⟨ev, htrace, hnone⟩ := submitsNothing_ended .transportSubmitFailure (submitted k l .fail s)
    exact ⟨ev, htrace.trans (by simp), hnone⟩

/-- A submission in the trace of a step is the one of SEQ's phase START or P2, with TP's answer. -/
theorem step_of_submission {ev : List Event} {k : SubmitKind} {l : List Byte} {a : Answer} (h : step s = .next t)
    (htrace : t.trace = s.trace ++ ev) (hsub : Event.sub k l a ∈ ev) :
    (s.ph = .start ∨ s.ph = .p2) ∧ a = s.tpAnswer ∧ ∃ p, t = (afterAnswer k l p a s).redraw := by
  obtain ⟨u, rfl, ⟨ev', htrace', hnone⟩ | ⟨hs, k', l', p, rfl⟩⟩ := step_submits h
  · obtain rfl : ev = ev' := List.append_cancel_left (htrace.symm.trans htrace')
    exact absurd hsub (hnone k l a)
  · obtain ⟨ev', htrace', hnone⟩ := afterAnswer_trace k' l' p s.tpAnswer s
    obtain rfl : ev = _ := List.append_cancel_left (htrace.symm.trans htrace')
    obtain ⟨rfl, rfl, rfl⟩ : k = k' ∧ l = l' ∧ a = s.tpAnswer := by simpa [hnone] using hsub
    exact ⟨hs, rfl, p, rfl⟩

/-- Settles O33: the pairing is kept by every operation, `step_cs_cases` says when `CS` changes, and a submission is
made at START or P2, where the invariant has `CS = 1`. -/
theorem chipSelectIsPaired : Obligations.ChipSelectIsPaired := by
  refine ⟨fun s t hs h => step_keeps_chipSelectPaired hs h, fun s t h hlow hhigh => ?_,
    fun s t _ h hhigh hlow => ?_, fun s t ev k l a hinv h htrace hsub => ?_⟩
  · obtain hkeep | ⟨-, hissue⟩ | ⟨hcs, -⟩ := step_cs_cases h
    · simp [hkeep, hlow] at hhigh
    · exact hissue
    · simp [hcs] at hhigh
  · obtain hkeep | ⟨hcs, -⟩ | ⟨-, hend⟩ := step_cs_cases h
    · simp [hkeep, hhigh] at hlow
    · simp [hcs] at hlow
    · exact hend
  · obtain ⟨hs, -⟩ := step_of_submission h htrace hsub
    exact hinv.cs_iff.2 (by rcases hs with hs | hs <;> simp [hs])

/-! ### TP's answers -/

/-- A submission that TP did not accept leaves TP as it was (41_sequencer.md R124). -/
theorem afterAnswer_denied (k : SubmitKind) (l : List Byte) (p : Phase) {a : Answer} (ha : a ≠ .accepted)
    (s : State) :
    (afterAnswer k l p a s).tpBusy = s.tpBusy ∧ (afterAnswer k l p a s).tpTxBusy = s.tpTxBusy ∧
      (afterAnswer k l p a s).tpCur = s.tpCur := by
  cases a with
  | accepted => exact absurd rfl ha
  | busy | fail => exact ⟨rfl, rfl, rfl⟩

/-- An answer that the rule allows is TP's where it is drawn. -/
theorem tpAnswer_of_allowed {a : Answer} (hdraw : s.draw.answer = a) (ha : a = .accepted → s.tpTxBusy = false) :
    s.tpAnswer = a := by
  subst hdraw
  cases h : s.draw.answer with
  | accepted => rw [tpAnswer_of_idle s (ha h), h]
  | busy | fail => simp [State.tpAnswer, h]

/-- SEQ's turn at START and at P2 is a submission. -/
theorem seqMove_of_submitting (hs : s.ph = .start ∨ s.ph = .p2) :
    ∃ k l p, s.seqMove = afterAnswer k l p s.tpAnswer s := by
  rcases hs with hs | hs
  · exact ⟨_, _, _, seqMove_start hs⟩
  · by_cases hk : s.tKind = .read
    · exact ⟨_, _, _, seqMove_p2_read hs hk⟩
    · exact ⟨_, _, _, seqMove_p2_write hs hk⟩

/-- A draw that moves SEQ and names an allowed answer makes a submission with that answer. -/
theorem stepWith_submitting (d : Draw) {a : Answer} (hs : s.ph = .start ∨ s.ph = .p2)
    (ha : a = .accepted → s.tpTxBusy = false) :
    ∃ k l p, stepWith { d with agent := .seq, answer := a } s =
      .next (afterAnswer k l p a { s with draw := { d with agent := .seq, answer := a } }).redraw := by
  obtain ⟨k, l, p, hmove⟩ :=
    seqMove_of_submitting (s := { s with draw := { d with agent := .seq, answer := a } }) hs
  exact ⟨k, l, p, by rw [stepWith_seq s _ rfl, hmove, tpAnswer_of_allowed rfl ha]⟩

/-- Settles O21: what an answer leaves in TP is read off `afterAnswer`, and each allowed answer is drawn by
`stepWith_submitting`. -/
theorem submissionAnswers : Obligations.SubmissionAnswers := by
  refine ⟨fun s t ev k l a h htrace hsub => ?_, fun s a hs ha => ?_⟩
  · obtain ⟨-, hanswer, p, rfl⟩ := step_of_submission h htrace hsub
    refine ⟨?_, fun hdenied => afterAnswer_denied k l p hdenied s⟩
    rintro rfl
    exact ⟨tpAnswer_accepted s hanswer.symm, rfl, rfl, rfl⟩
  · obtain ⟨k, l, p, hstep⟩ := stepWith_submitting s.draw hs ha
    obtain ⟨ev, htrace, -⟩ := afterAnswer_trace k l p a _
    exact ⟨_, _, k, l, ev, hstep, htrace⟩

end Sys2Proof.Machine
end

section
/-! SUPPORT. The phases of a transaction (41_sequencer.md R131 to R143): the step of each phase, the value of a read,
and the waits. -/

namespace Sys2Proof.Machine

variable {s t : State}

/-! ### START -/

/-- Settles O14: SEQ's turn at START is `seqMove_start`. -/
theorem startSubmitsTheCommandByte : Obligations.StartSubmitsTheCommandByte := by
  intro s ha hs
  rw [step_seq s ha, seqMove_start hs]

/-! ### The waits for the transmitter -/

/-- SEQ's turn at a wait whose condition is false. -/
theorem step_of_waiting (ha : s.draw.agent = .seq) (hw : waiting s.ph = true) (hover : waitOver s = false) :
    step s = .next (heldOrPolled s).redraw := by
  rw [step_seq s ha, seqMove_of_waiting hw hover]

/-- Settles O15: an idle transmitter by `seqMove_wtx1`, a busy one by `step_of_waiting`. -/
theorem wtx1WaitsForTheTransmitter : Obligations.Wtx1WaitsForTheTransmitter := by
  intro s ha hs
  constructor
  · intro hidle
    rw [step_seq s ha, seqMove_wtx1 hs hidle]
  · intro hbusy
    exact step_of_waiting ha (by simp [hs, waiting]) (by simp [hs, waitOver, hbusy])

/-- The phase after a submission is IDLE or the successor it names. -/
theorem afterAnswer_ph (k : SubmitKind) (l : List Byte) (p : Phase) (a : Answer) (s : State) :
    (afterAnswer k l p a s).ph = .idle ∨ (afterAnswer k l p a s).ph = p := by
  cases a with
  | accepted => exact .inr rfl
  | busy | fail => exact .inl rfl

/-- A request leaves the phase where it was, at IDLE, or goes to START. -/
theorem requestEffect_ph {u : State} (h : RequestEffect s u) : u.ph = .idle ∨ u.ph = .start := by
  cases h with
  | responds _ _ _ _ _ _ => exact .inl rfl
  | accepts _ _ _ _ _ _ => exact .inr rfl

/-- A step that changes the phase resets or ends the transaction, issues one, or is a turn of SEQ. -/
theorem step_ph_cases (h : step s = .next t) :
    t.ph = s.ph ∨ t.ph = .idle ∨ t.ph = .start ∨ t = s.seqMove.redraw := by
  obtain ⟨u, rfl, hu⟩ := step_effect s h
  cases hu with
  | waits _ => exact .inl rfl
  | issues r rest _ _ _ _ _ he =>
    obtain hidle | hstart := requestEffect_ph he
    · exact .inr (.inl hidle)
    · exact .inr (.inr (.inl hstart))
  | sequences _ => exact .inr (.inr (.inr rfl))
  | transports _ => exact .inl (tpMove_ph s)
  | resets _ => exact .inr (.inl rfl)

/-- SEQ enters WTX2 from the P2 step of a transaction that is no read. -/
theorem seqEffect_enters_wtx2 {u : State} (h : SeqEffect s u) (hs : s.ph ≠ .wtx2) (hu : u.ph = .wtx2) :
    s.ph = .p2 ∧ s.tKind ≠ .read := by
  cases h with
  | waits c => exact absurd hu hs
  | advances c p hp => obtain rfl | ⟨rfl, -⟩ := hp <;> cases hu
  | submits k l p _ hp =>
    obtain hidle | hnext := afterAnswer_ph k l p s.tpAnswer s
    · simp [hidle] at hu
    · exact hp (hnext.symm.trans hu)
  | releases d a => cases hu
  | timesOut c => cases hu

/-- Settles O16: an idle transmitter by `seqMove_wtx2`, a busy one by `step_of_waiting`, and the way into WTX2 by
`seqEffect_enters_wtx2`. -/
theorem wtx2WaitsForTheTransmitter : Obligations.Wtx2WaitsForTheTransmitter := by
  refine ⟨fun s ha hs => ⟨fun hidle => ?_, fun hbusy => ?_⟩, fun s t hs h ht => ?_⟩
  · rw [step_seq s ha, seqMove_wtx2 hs hidle]
  · exact step_of_waiting ha (by simp [hs, waiting]) (by simp [hs, waitOver, hbusy])
  · obtain hsame | hidle | hstart | rfl := step_ph_cases h
    · exact absurd (hsame.symm.trans ht) hs
    · simp [hidle] at ht
    · simp [hstart] at ht
    · exact seqEffect_enters_wtx2 (seqMove_cases s) hs ht

/-! ### P2 -/

theorem phase2Bytes_length (b : Buffer) {n : BitVec 3} (h : n.toNat ≤ 4) : (phase2Bytes b n).length = n.toNat := by
  simpa [phase2Bytes] using h

theorem phase2Bytes_prefix (b : Buffer) (n : BitVec 3) : phase2Bytes b n <+: [b.s1, b.s2, b.s3, b.s4] :=
  List.take_prefix _ _

/-- Settles O17: the payload is `phase2Bytes`, submitted as `seqMove_p2_read` and `seqMove_p2_write` say. -/
theorem p2SubmitsThePayload : Obligations.P2SubmitsThePayload := by
  intro s ha hs _ hmax
  refine ⟨phase2Bytes s.tx s.tLen, phase2Bytes_length s.tx hmax, phase2Bytes_prefix s.tx s.tLen, fun hk => ?_,
    fun hk => ?_⟩
  · rw [step_seq s ha, seqMove_p2_read hs hk]
  · rw [step_seq s ha, seqMove_p2_write hs hk]

/-! ### FINAL -/

/-- One byte more of a capture: the bytes before it move up. -/
theorem shiftLeft_or_setWidth (n : Nat) (x : Byte) :
    (BitVec.ofNat 24 n <<< 8) ||| x.setWidth 24 = BitVec.ofNat 24 (n * 256 + x.toNat) := by
  have hdisjoint : (BitVec.ofNat 24 n <<< 8) &&& x.setWidth 24 = 0#24 := by
    ext i hi
    by_cases h : i < 8
    · simp [h]
    · simp [BitVec.getLsbD_of_ge x i (Nat.le_of_not_lt h)]
  rw [← BitVec.add_eq_or_of_and_eq_zero _ _ hdisjoint]
  apply BitVec.eq_of_toNat_eq
  simp [Nat.shiftLeft_eq]

theorem foldl_bytes_eq_ofNat (l : List Byte) (n : Nat) :
    l.foldl (fun (v : BitVec 24) x => (v <<< 8) ||| x.setWidth 24) (BitVec.ofNat 24 n) =
      BitVec.ofNat 24 (l.foldl (fun v x => v * 256 + x.toNat) n) := by
  induction l generalizing n with
  | nil => rfl
  | cons x l ih => rw [List.foldl_cons, List.foldl_cons, shiftLeft_or_setWidth, ih]

theorem foldl_bytes_lt (l : List Byte) (n : Nat) :
    l.foldl (fun v x => v * 256 + x.toNat) n < (n + 1) * 256 ^ l.length := by
  induction l generalizing n with
  | nil => simp
  | cons x l ih =>
    have hx : x.toNat < 256 := x.isLt
    calc (x :: l).foldl (fun v x => v * 256 + x.toNat) n < (n * 256 + x.toNat + 1) * 256 ^ l.length := ih _
      _ ≤ (n * 256 + 256) * 256 ^ l.length := Nat.mul_le_mul_right _ (by omega)
      _ = (n + 1) * 256 ^ (x :: l).length := by rw [List.length_cons]; ring

theorem bytesValue_lt (l : List Byte) : bytesValue l < 256 ^ l.length := by
  simpa [bytesValue] using foldl_bytes_lt l 0

/-- `Value()` is the number of the captured bytes after the dummy-clock byte (41_sequencer.md R139). -/
theorem readValue_setWidth (b : Buffer) (n : BitVec 3) :
    (readValue b n).setWidth 64 = BitVec.ofNat 64 (bytesValue ([b.s2, b.s3, b.s4].take (n.toNat - 1))) := by
  set l := [b.s2, b.s3, b.s4].take (n.toNat - 1) with hl
  have hlen : l.length ≤ 3 := by simp [hl]
  have hlt : bytesValue l < 2 ^ 24 :=
    (bytesValue_lt l).trans_le (Nat.pow_le_pow_right (n := 256) (by decide) hlen)
  have hvalue : readValue b n = BitVec.ofNat 24 (bytesValue l) := foldl_bytes_eq_ofNat l 0
  rw [hvalue, BitVec.setWidth_ofNat_of_le_of_lt (by decide) hlt]

/-- The count of a read's value bytes. -/
theorem setWidth_sub_one {n : BitVec 3} (h : 1 ≤ n.toNat) : n.setWidth 8 - 1#8 = BitVec.ofNat 8 (n.toNat - 1) := by
  rw [← BitVec.ofNat_sub_ofNat_of_le _ _ (by decide) h]
  simp

/-- Settles O18: a completion that is there by `seqMove_final` and the release of its kind, else `step_of_waiting`. -/
theorem finalReleases : Obligations.FinalReleases := by
  refine fun s ha hs => ⟨fun hdone hbusy hk hmin _ => ?_, fun hdone hbusy hk => ?_, fun hover => ?_⟩
  · rw [step_seq s ha, seqMove_final hs hdone hbusy, release_of_read hk, readValue_setWidth, setWidth_sub_one hmin]
  · rw [step_seq s ha, seqMove_final hs hdone hbusy, release_of_not_read hk]
  · exact step_of_waiting ha (by simp [hs, waiting]) (by rcases hover with h | h <;> simp [hs, waitOver, h])

/-! ### False waits -/

theorem heldOrPolled_unbounded (h : s.cfgPollLimit = 0#32) : heldOrPolled s = s := if_pos h

theorem heldOrPolled_below (h : s.cfgPollLimit ≠ 0#32) (hlt : s.pollCnt.toNat + 1 < s.cfgPollLimit.toNat) :
    heldOrPolled s = { s with pollCnt := s.pollCnt + 1#32 } := by
  simp [heldOrPolled, h, hlt]

theorem heldOrPolled_at_limit (h : s.cfgPollLimit ≠ 0#32) (hle : s.cfgPollLimit.toNat ≤ s.pollCnt.toNat + 1) :
    heldOrPolled s = errored .transportTimeout (deselected { s with pollCnt := s.pollCnt + 1#32 }) := by
  simp [heldOrPolled, h, Nat.not_lt.2 hle]

/-- SEQ enters a wait with the poll counter at 0. -/
theorem seqEffect_enters_wait {u : State} (h : SeqEffect s u) (hw : waiting u.ph = true) (hne : u.ph ≠ s.ph) :
    u.pollCnt = 0#32 := by
  cases h with
  | waits c => exact absurd rfl hne
  | advances c p hp =>
    obtain rfl | ⟨rfl, rfl⟩ := hp
    · cases hw
    · rfl
  | submits k l p _ _ =>
    cases ha : s.tpAnswer with
    | accepted => rfl
    | busy | fail =>
      rw [ha] at hw
      cases hw
  | releases d a => cases hw
  | timesOut c => cases hw

/-- Settles O19: the three cases of `heldOrPolled` where SEQ moves, HOST's empty turn where it does, and the reset of
the counter by `seqEffect_enters_wait`. -/
theorem falseWaitsHoldOrPoll : Obligations.FalseWaitsHoldOrPoll := by
  refine ⟨fun s hw hover => ⟨fun hlim ha => ?_, fun hlim ha hlt => ?_, fun hlim ha hle => ?_⟩,
    fun s t h hw hne => ?_⟩
  · obtain ha | ha := ha
    · rw [step_of_waiting ha hw hover, heldOrPolled_unbounded hlim]
    · exact step_host_waits s ha (.inl fun hs => by simp [hs, waiting] at hw)
  · rw [step_of_waiting ha hw hover, heldOrPolled_below hlim hlt]
  · rw [step_of_waiting ha hw hover, heldOrPolled_at_limit hlim hle]
  · obtain hsame | hidle | hstart | rfl := step_ph_cases h
    · exact absurd hsame hne
    · simp [hidle, waiting] at hw
    · simp [hstart, waiting] at hw
    · exact seqEffect_enters_wait (u := s.seqMove) (seqMove_cases s) hw hne

end Sys2Proof.Machine
end

section
/-! SUPPORT. TP's two steps on their own (41_sequencer.md R125, R126), and the requests that a transfer's validation
refuses (R122). -/

namespace Sys2Proof.Machine

variable {s : State}

/-! ### TP -/

/-- A capture fills the slots from 1 on and leaves slot 0 and those past its last byte. -/
theorem storeCapture_capturedBytes (b : Buffer) (c : Capture) {n : Nat} (hmin : 1 ≤ n) (hmax : n ≤ 4) :
    storeCapture b (capturedBytes c n) =
      { s0 := b.s0
        s1 := c.c1
        s2 := if 2 ≤ n then c.c2 else b.s2
        s3 := if 3 ≤ n then c.c3 else b.s3
        s4 := if 4 ≤ n then c.c4 else b.s4 } := by
  interval_cases n <;> rfl

/-- TP's turn with the bytes sent and the completion still owed. -/
theorem step_tp_completes (ha : s.draw.agent = .tp) (hbusy : s.tpBusy = true) (htx : s.tpTxBusy = false) :
    step s = .next s.tpComplete.redraw := by
  rw [step_tp s ha, State.tpMove, htx, hbusy]
  rfl

/-- Settles O22: the two kinds of `tpComplete`, the capture's slots by `storeCapture_capturedBytes`. -/
theorem completionCaptures : Obligations.CompletionCaptures := by
  refine fun s ha hbusy htx hnotify => ⟨fun l hcur => ?_, fun l hcur hmin hmax => ?_⟩
  · rw [step_tp_completes ha hbusy htx, State.tpComplete, hcur]
    simp [hnotify]
  · rw [step_tp_completes ha hbusy htx, State.tpComplete, hcur]
    simp only [hnotify, Bool.or_true, storeCapture_capturedBytes _ _ hmin hmax]
    rfl

/-- Settles O23: the two outer cases of TP's turn. -/
theorem transmitterGoesIdle : Obligations.TransmitterGoesIdle := by
  intro s ha
  constructor
  · intro htx
    rw [step_tp s ha, State.tpMove, if_pos htx]
  · intro htx hbusy
    simp [step_tp s ha, State.tpMove, htx, hbusy]

/-! ### Validation -/

theorem catalog_eq_none_iff {reg : BitVec 4} : catalog reg = none ↔ reg ∈ [0xB#4, 0xC#4, 0xE#4] := by
  revert reg
  decide

theorem legalLength_eq_false {len : BitVec 4} (h : len.toNat = 0 ∨ 5 ≤ len.toNat) : legalLength len = false := by
  revert len
  decide

theorem transferError_of_badLength {reg len : BitVec 4} (hreg : reg ∉ [0xB#4, 0xC#4, 0xE#4])
    (hlen : len.toNat = 0 ∨ 5 ≤ len.toNat) : transferError reg len = some .invalidLength := by
  have hcatalog : catalog reg ≠ none := mt catalog_eq_none_iff.1 hreg
  simp [transferError, reserved, hcatalog, legalLength_eq_false hlen]

/-- Both transfers finish a failed validation in the issue step. -/
theorem exec_transfer_refused {reg len : BitVec 4} {e : Status} (hs : s.ph = .idle)
    (h : transferError reg len = some e) (v : Word32) :
    exec (.rdreg reg len) s = .next (errored e s) ∧ exec (.wrreg reg len v) s = .next (errored e s) := by
  simp [exec, execRdreg, execWrreg, issueTransfer_refused _ _ hs h, hs]

/-- Settles O12: either error of `transferError`, the register's first, is refused by `exec_transfer_refused`. -/
theorem validationTouchesNoBus : Obligations.ValidationTouchesNoBus := by
  intro reg len v s hs
  exact ⟨fun hreg => exec_transfer_refused hs (transferError_of_reserved (catalog_eq_none_iff.2 hreg) len) v,
    fun hreg hlen => exec_transfer_refused hs (transferError_of_badLength hreg hlen) v⟩

end Sys2Proof.Machine
end

section
/-! SUPPORT. `DEC24` (42_converter.md R170, R171): the code of three bytes is the sign extension of their 24 bits, and
as a number their two's-complement reading. -/

namespace Sys2Proof.Machine

variable {s t : State}

theorem decodeRequest_dec24 {r : Request} (h : ctlOpc r.ctl = 0x6#4) :
    decodeRequest r = .dec24 (r.data.extractLsb' 16 8) (r.data.extractLsb' 8 8) (r.data.extractLsb' 0 8) := by
  simp [decodeRequest, h]

/-- The two's-complement reading of a byte, by its most significant bit. -/
theorem byte_toInt (b : Byte) : b.toInt = b.toNat - if b.getLsbD 7 then 2 ^ 8 else 0 := by
  revert b
  decide

/-- The two's-complement reading of three bytes: the first byte carries the sign. -/
theorem threeBytes_toInt (b1 b2 b3 : Byte) :
    (b1 ++ b2 ++ b3).toInt =
      (b1.toNat * 65536 + b2.toNat * 256 + b3.toNat : Int) - if b1.getLsbD 7 then 2 ^ 24 else 0 := by
  simp only [BitVec.toInt_append, byte_toInt]
  cases b1.getLsbD 7 <;> simp <;> omega

/-- Filling bits 31:24 with copies of bit 23 is sign extension. -/
theorem decode24_eq_signExtend (b1 b2 b3 : Byte) : decode24 b1 b2 b3 = (b1 ++ b2 ++ b3).signExtend 32 := by
  apply BitVec.eq_of_toInt_eq
  rw [BitVec.toInt_signExtend_of_le (by decide), threeBytes_toInt, decode24]
  split <;> simp only [BitVec.toInt_append, byte_toInt] <;> simp <;> omega

theorem signExtend_decode24 (b1 b2 b3 : Byte) :
    (decode24 b1 b2 b3).signExtend 64 = (b1 ++ b2 ++ b3).signExtend 64 := by
  apply BitVec.eq_of_toInt_eq
  simp only [decode24_eq_signExtend, BitVec.toInt_signExtend_of_le, Nat.reduceAdd, Nat.reduceLeDiff]

/-- The operand bytes of `DEC24`, put together, are `DATA[23:0]`. -/
theorem extractLsb'_threeBytes (data : Word64) :
    data.extractLsb' 16 8 ++ data.extractLsb' 8 8 ++ data.extractLsb' 0 8 = data.extractLsb' 0 24 := by
  have hhigh : data.extractLsb' 16 8 ++ data.extractLsb' 8 8 = data.extractLsb' 8 16 :=
    BitVec.extractLsb'_append_extractLsb'_eq_extractLsb' rfl
  rw [hhigh]
  exact BitVec.extractLsb'_append_extractLsb'_eq_extractLsb' rfl

theorem exec_dec24_at_idle (b1 b2 b3 : Byte) (hs : s.ph = .idle) :
    exec (.dec24 b1 b2 b3) s = .next (responded .ok ((b1 ++ b2 ++ b3).signExtend 64) 0#8 s) := by
  rw [← signExtend_decode24]
  exact issue_at_idle s _ hs

/-- Settles O35: `exec_dec24_at_idle` on the bytes of `DATA[23:0]`. -/
theorem dec24SignExtends : Obligations.Dec24SignExtends := by
  intro r s hopc hs
  refine ⟨congrArg _ (decodeRequest_dec24 hopc), ?_⟩
  rw [← extractLsb'_threeBytes]
  exact exec_dec24_at_idle _ _ _ hs

/-- Settles O36: the reading is `threeBytes_toInt`, which sign extension keeps; the three points are cases of
`exec_dec24_at_idle`. -/
theorem dec24IsTwosComplement : Obligations.Dec24IsTwosComplement := by
  refine ⟨fun b1 b2 b3 s t h => ?_, fun s hs =>
    ⟨exec_dec24_at_idle _ _ _ hs, exec_dec24_at_idle _ _ _ hs, exec_dec24_at_idle _ _ _ hs⟩⟩
  obtain ⟨hs, -⟩ := (issue_next_iff _ _ _).1 h
  obtain rfl := Host.Outcome.next.inj ((exec_dec24_at_idle b1 b2 b3 hs).symm.trans h)
  rw [responded_respData, BitVec.toInt_signExtend_of_le (by decide), threeBytes_toInt]

end Sys2Proof.Machine
end

section
/-! SUPPORT. Binary64 patterns as rational numbers (00_scope.md R9): the value of a pattern is its magnitude
`magNum / magDen` with its sign, the two zeros, and `roundHalfAway` as a floor. -/

namespace Sys2Proof.Machine

/-! ### The value of a pattern -/

theorem magDen_pos (x : Word64) : 0 < magDen x := Nat.two_pow_pos _

theorem two_pow_sub_div (a b : Nat) : (2 : ℚ) ^ (a - b) / 2 ^ (b - a) = 2 ^ ((a : ℤ) - b) := by
  rw [← zpow_natCast_sub_natCast₀ two_ne_zero]
  congr 1
  omega

/-- The magnitude is the significand times `2 ^ (scale - 1075)`. -/
theorem magnitude_eq (x : Word64) :
    (magNum x : ℚ) / magDen x = b64Sig x * (2 : ℚ) ^ ((b64Scale x : ℤ) - 1075) := by
  have hpow := two_pow_sub_div (b64Scale x) 1075
  rw [magNum, magDen, Nat.cast_mul, Nat.cast_pow, Nat.cast_pow, Nat.cast_ofNat, mul_div_assoc, hpow]
  rfl

/-- A fraction of `2 ^ 52` steps, scaled, is a whole number of units in the last place. -/
theorem div_two_pow_mul_zpow (a : ℚ) (k : ℤ) : a / 2 ^ 52 * 2 ^ (k + 52) = a * (2 : ℚ) ^ k := by
  rw [zpow_add₀ two_ne_zero, mul_comm ((2 : ℚ) ^ k), ← mul_assoc]
  exact congrArg (· * (2 : ℚ) ^ k) (div_mul_cancel₀ a (by norm_num))

/-- The value of a pattern is its magnitude with its sign. -/
theorem b64Value_eq (x : Word64) :
    b64Value x = (if b64Sign x then -1 else 1) * ((magNum x : ℚ) / magDen x) := by
  rw [magnitude_eq, b64Value, ← b64Sign, ← b64Exp, ← b64Frac]
  congr 1
  by_cases h : b64Exp x = 0
  · have hscale : b64Scale x = 1 := by rw [b64Scale, h]; rfl
    rw [if_pos h, b64Sig, if_pos h, hscale]
    exact div_two_pow_mul_zpow _ (-1074)
  · have hscale : b64Scale x = b64Exp x := max_eq_left (Nat.one_le_iff_ne_zero.2 h)
    have hexp : (b64Exp x : ℤ) - 1023 = (b64Exp x - 1075) + 52 := by ring
    have hsig : (1 + (b64Frac x : ℚ) / 2 ^ 52) = ((2 ^ 52 + b64Frac x : ℕ) : ℚ) / 2 ^ 52 := by
      push_cast
      ring
    rw [if_neg h, b64Sig, if_neg h, hscale, hexp, hsig, div_two_pow_mul_zpow]

theorem abs_b64Value (x : Word64) : |b64Value x| = (magNum x : ℚ) / magDen x := by
  rw [b64Value_eq]
  generalize magNum x = n, magDen x = d
  have hmag : |(n : ℚ) / d| = n / d := abs_of_nonneg (by positivity)
  cases b64Sign x <;> simp [hmag]

theorem b64Value_eq_zero_iff (x : Word64) : b64Value x = 0 ↔ magNum x = 0 := by
  have hden : (magDen x : ℚ) ≠ 0 := Nat.cast_ne_zero.2 (magDen_pos x).ne'
  rw [← abs_eq_zero, abs_b64Value, div_eq_zero_iff, or_iff_left hden, Nat.cast_eq_zero]

/-- A pattern is negative if its sign is set, but for the negative zero. -/
theorem b64Value_neg_iff (x : Word64) : b64Value x < 0 ↔ b64Sign x = true ∧ magNum x ≠ 0 := by
  rw [ne_eq, ← b64Value_eq_zero_iff, b64Value_eq]
  generalize magNum x = n, magDen x = d
  have hmag : 0 ≤ (n : ℚ) / d := by positivity
  cases b64Sign x
  · simpa using hmag
  · simp [hmag.lt_iff_ne', -div_eq_zero_iff]

/-! ### Rounding -/

/-- Rounding a fraction with halves up is the floor of the fraction and a half (42_converter.md R180). -/
theorem roundHalfAway_eq_floor (n : Nat) {d : Nat} (hd : 0 < d) :
    ⌊(n : ℚ) / d + 1 / 2⌋ = (roundHalfAway n d : ℤ) := by
  have hsum : (n : ℚ) / d + 1 / 2 = ((2 * n + d : ℕ) : ℚ) / (2 * d : ℕ) := by
    have hne : (d : ℚ) ≠ 0 := by positivity
    push_cast
    field_simp
  rw [hsum, Rat.floor_natCast_div_natCast]
  rfl

/-- The zero of each sign. -/
def signedZero (neg : Bool) : Word64 := if neg then 0x8000000000000000#64 else 0#64

theorem b64Sign_signedZero (neg : Bool) : b64Sign (signedZero neg) = neg := by cases neg <;> rfl

theorem magNum_signedZero (neg : Bool) : magNum (signedZero neg) = 0 := by cases neg <;> rfl

theorem b64Finite_signedZero (neg : Bool) : b64Finite (signedZero neg) = true := by cases neg <;> rfl

/-- A zero keeps the sign it is rounded with (log 15). -/
theorem rne_zero (neg : Bool) (den : Nat) : rne neg 0 den = signedZero neg := by
  have hmag : rneMagnitude 0 den = 0 := by
    simp only [rneMagnitude, zero_mul, Nat.zero_div]
    simp [roundHalfEven]
  rw [rne, hmag]
  cases neg <;> rfl

end Sys2Proof.Machine
end

section
/-! SUPPORT. `TOVOLT` at the source's points (42_converter.md R176) and `DSPLIT` in exact arithmetic (R180). -/

namespace Sys2Proof.Machine

variable {s : State}

/-! ### The result of a request, or DecodeOutOfRange -/

theorem finishInRange_some (s : State) (data : Word64) (aux : Byte) :
    s.finishInRange (some (data, aux)) = responded .ok data aux s := rfl

theorem finishInRange_none (hs : s.ph = .idle) : s.finishInRange none = errored .decodeOutOfRange s :=
  takeError_at_idle s _ hs

/-! ### TOVOLT -/

theorem exec_tovolt_of_some {code : Word32} {v : Word64} (hs : s.ph = .idle)
    (h : toVoltage code s.cfgFullScale s.cfgResolution = some v) :
    exec (.tovolt code) s = .next (responded .ok v 0#8 s) := by
  simp [exec, execTovolt, h, hs, finishInRange_some]

theorem exec_tovolt_of_none {code : Word32} (hs : s.ph = .idle)
    (h : toVoltage code s.cfgFullScale s.cfgResolution = none) :
    exec (.tovolt code) s = .next (errored .decodeOutOfRange s) := by
  simp [exec, execTovolt, h, hs, finishInRange_none]

theorem toVoltage_eq_none {code : Word32} {fs : Word64} {res : Word32} (h : b64Finite fs = false ∨ res = 0#32) :
    toVoltage code fs res = none := by
  obtain h | h := h <;> simp [toVoltage, h]

theorem scaledProduct_zero (fs : Word64) : scaledProduct 0#32 fs = some (signedZero (b64Sign fs)) := by
  have hsign : ((0#32).getLsbD 31 ^^ b64Sign fs) = b64Sign fs := Bool.false_xor _
  have hnum : (0#32).toInt.natAbs * magNum fs = 0 := zero_mul _
  rw [scaledProduct, hsign, hnum, rne_zero]
  exact if_pos (b64Finite_signedZero _)

/-- The code 0 gives a zero with the sign of the full scale (R175, corner cases). -/
theorem toVoltage_zero {fs : Word64} {res : Word32} (hfs : b64Finite fs = true) (hres : res ≠ 0#32) :
    toVoltage 0#32 fs res = some (signedZero (b64Sign fs)) := by
  rw [toVoltage, if_neg hres, if_pos hfs, scaledProduct_zero, Option.map_some, magNum_signedZero, b64Sign_signedZero,
    rne_zero]

/-- The two points of the source under the reset configuration: product and quotient by 2^23 are exact (R176). -/
theorem toVoltage_fullScale :
    toVoltage 0x00800000#32 0x400A666666666666#64 0x00800000#32 = some 0x400A666666666666#64 ∧
    toVoltage 0xFF800000#32 0x400A666666666666#64 0x00800000#32 = some 0xC00A666666666666#64 := by
  decide +kernel

/-- Settles O38: the two points are `toVoltage_fullScale`, the code 0 is `toVoltage_zero`, and the errors are
`toVoltage_eq_none`. -/
theorem tovoltSourceProperties : Obligations.TovoltSourceProperties := by
  refine ⟨fun s hs hfs hres => ?_, fun s hs hfs hres => ?_, fun s hs h => ?_⟩
  · obtain ⟨hpos, hneg⟩ := toVoltage_fullScale
    exact ⟨exec_tovolt_of_some hs (by rw [hfs, hres, hpos]), exec_tovolt_of_some hs (by rw [hfs, hres, hneg])⟩
  · exact ⟨_, exec_tovolt_of_some hs (toVoltage_zero hfs hres), (b64Value_eq_zero_iff _).2 (magNum_signedZero _)⟩
  · exact exec_tovolt_of_none hs (toVoltage_eq_none h)

/-! ### DSPLIT at IDLE -/

theorem decodeRequest_dsplit {r : Request} (h : ctlOpc r.ctl = 0x8#4) :
    decodeRequest r = .dsplit r.data (ctlLen r.ctl) := by
  simp [decodeRequest, h]

theorem exec_dsplit_of_tooManyDigits {d : BitVec 4} (x : Word64) (hs : s.ph = .idle) (hd : 9 < d.toNat) :
    exec (.dsplit x d) s = .next (errored .invalidLength s) := by
  simp [exec, execDsplit, Config.maxDigits, hd, hs, takeError_at_idle]

theorem exec_dsplit_at_idle {d : BitVec 4} (x : Word64) (hs : s.ph = .idle) (hd : d.toNat ≤ 9) :
    exec (.dsplit x d) s = .next (s.finishInRange (displaySplit x d.toNat)) := by
  simp [exec, execDsplit, Config.maxDigits, Nat.not_lt.2 hd, hs]

/-! ### The numbers of DSPLIT, in the model and in R180's real arithmetic -/

/-- The fraction in units of the last digit, rounded, before the carry: `Q` of R180. -/
def fractionDigits (x : Word64) (digits : Nat) : Nat :=
  roundHalfAway (magNum x % magDen x * 10 ^ digits) (magDen x)

/-- The integer part of the display, after the carry. -/
def displayWhole (x : Word64) (digits : Nat) : Nat :=
  if fractionDigits x digits = 10 ^ digits then magNum x / magDen x + 1 else magNum x / magDen x

/-- The fraction digits of the display, after the carry. -/
def displayFraction (x : Word64) (digits : Nat) : Nat :=
  if fractionDigits x digits = 10 ^ digits then 0 else fractionDigits x digits

/-- The split of a finite pattern, in the numbers of R180; the sign is that of the value. -/
theorem displaySplit_of_finite {x : Word64} (hx : b64Finite x = true) (digits : Nat) :
    displaySplit x digits =
      if 2 ^ 32 ≤ displayWhole x digits then none
      else some (BitVec.ofNat 32 (displayWhole x digits) ++ BitVec.ofNat 32 (displayFraction x digits),
        if b64Value x < 0 then 1#8 else 0#8) := by
  simp only [b64Value_neg_iff]
  exact if_pos hx

theorem displaySplit_of_not_finite {x : Word64} (hx : b64Finite x = false) (digits : Nat) :
    displaySplit x digits = none :=
  if_neg (ne_true_of_eq_false hx)

theorem floor_abs_b64Value (x : Word64) : ⌊|b64Value x|⌋ = ((magNum x / magDen x : ℕ) : ℤ) := by
  rw [abs_b64Value, Rat.floor_natCast_div_natCast, Int.natCast_div]

theorem floor_fraction_b64Value (x : Word64) (digits : Nat) :
    ⌊(|b64Value x| - ⌊|b64Value x|⌋) * 10 ^ digits + 1 / 2⌋ = (fractionDigits x digits : ℤ) := by
  have hfract : |b64Value x| - ⌊|b64Value x|⌋ = ((magNum x % magDen x : ℕ) : ℚ) / magDen x := by
    rw [Int.self_sub_floor, abs_b64Value, Int.fract_div_natCast_eq_div_natCast_mod]
  rw [hfract, fractionDigits, ← roundHalfAway_eq_floor _ (magDen_pos x), Nat.cast_mul, Nat.cast_pow, Nat.cast_ofNat,
    div_mul_eq_mul_div]

/-! ### DSPLIT by its rule -/

/-- Settles O40: `floor_fraction_b64Value` and `floor_abs_b64Value` make the statement's integers the model's numbers;
the errors and the result are then the cases of `displaySplit`. -/
theorem dsplitSplitsExactly : Obligations.DsplitSplitsExactly := by
  intro r s hopc hs x d m q i f
  have hq : q = fractionDigits x d.toNat := floor_fraction_b64Value x d.toNat
  have hcarry : q = 10 ^ d.toNat ↔ fractionDigits x d.toNat = 10 ^ d.toNat := by
    rw [hq]
    exact_mod_cast Iff.rfl
  have hwhole : i = displayWhole x d.toNat := by
    simp only [i, m, hcarry, floor_abs_b64Value, displayWhole, Nat.cast_ite, Nat.cast_add, Nat.cast_one]
  have hfraction : f = displayFraction x d.toNat := by
    simp only [f, hcarry, displayFraction, Nat.cast_ite, Nat.cast_zero]
    rw [hq]
  clear_value i f
  subst hwhole hfraction
  refine ⟨congrArg _ (decodeRequest_dsplit hopc), fun hd => exec_dsplit_of_tooManyDigits x hs hd, fun hd hx => ?_,
    fun hd hx hover => ?_, fun hd hx hfits => ?_⟩
  · rw [exec_dsplit_at_idle x hs hd, displaySplit_of_not_finite hx, finishInRange_none hs]
  · have hover : 2 ^ 32 ≤ displayWhole x d.toNat := by exact_mod_cast hover
    rw [exec_dsplit_at_idle x hs hd, displaySplit_of_finite hx, if_pos hover, finishInRange_none hs]
  · have hfits : ¬ 2 ^ 32 ≤ displayWhole x d.toNat := by exact_mod_cast not_le.2 hfits
    rw [exec_dsplit_at_idle x hs hd, displaySplit_of_finite hx, if_neg hfits, finishInRange_some, BitVec.ofInt_natCast,
      BitVec.ofInt_natCast]

end Sys2Proof.Machine
end

section
/-! SUPPORT. `SETCFG` and `GETCFG` (43_config.md R200, R205): the access to the register of an index, or to none, gives
the answer; the bits of the operand that a register takes are those of `DATA`. -/

namespace Sys2Proof.Machine

variable {s t : State} {idx : BitVec 4} {v : Word64}

theorem decodeRequest_setcfg {r : Request} (h : ctlOpc r.ctl = 0x9#4) :
    decodeRequest r = .setcfg (ctlReg r.ctl) (configOperand (ctlReg r.ctl) r.data) := by
  simp [decodeRequest, h]

theorem decodeRequest_getcfg {r : Request} (h : ctlOpc r.ctl = 0xA#4) : decodeRequest r = .getcfg (ctlReg r.ctl) := by
  simp [decodeRequest, h]

/-! ### The register of an index -/

theorem index_not_register (h : 3 ≤ idx.toNat) : idx ≠ 0#4 ∧ idx ≠ 1#4 ∧ idx ≠ 2#4 := by
  refine ⟨?_, ?_, ?_⟩ <;> rintro rfl <;> exact absurd h (by decide)

theorem writeConfig_of_noRegister (h : 3 ≤ idx.toNat) (v : Word64) (s : State) : s.writeConfig idx v = none := by
  obtain ⟨h0, h1, h2⟩ := index_not_register h
  rw [State.writeConfig, if_neg h0, if_neg h1, if_neg h2]

theorem readConfig_of_noRegister (h : 3 ≤ idx.toNat) (s : State) : s.readConfig idx = none := by
  obtain ⟨h0, h1, h2⟩ := index_not_register h
  rw [State.readConfig, if_neg h0, if_neg h1, if_neg h2]

/-- The operand of a 32-bit register keeps the bits that the register takes. -/
theorem configOperand_low (h : idx = 1#4 ∨ idx = 2#4) (data : Word64) :
    (configOperand idx data).extractLsb' 0 32 = data.extractLsb' 0 32 := by
  have hidx : idx ≠ 0#4 := by obtain rfl | rfl := h <;> decide
  rw [configOperand, if_neg hidx, if_pos h, BitVec.extractLsb'_setWidth_of_le (by decide), BitVec.extractLsb'_eq_self,
    BitVec.setWidth_eq_extractLsb' (by decide)]

/-- A 32-bit register is answered with 32 zeros above it. -/
theorem word32_setWidth (x : Word32) : x.setWidth 64 = 0#32 ++ x := BitVec.setWidth_eq_append (by decide)

/-! ### SETCFG and GETCFG at IDLE -/

theorem exec_setcfg_of_some (hs : s.ph = .idle) (h : s.writeConfig idx v = some t) :
    exec (.setcfg idx v) s = .next (responded .ok 0#64 0#8 t) := by
  simp [exec, execSetcfg, h, hs, finish_eq_responded]

theorem exec_setcfg_of_none (hs : s.ph = .idle) (h : s.writeConfig idx v = none) :
    exec (.setcfg idx v) s = .next (errored .invalidRegisterAddress s) := by
  simp [exec, execSetcfg, h, hs, takeError_at_idle]

theorem exec_getcfg_of_some (hs : s.ph = .idle) (h : s.readConfig idx = some v) :
    exec (.getcfg idx) s = .next (responded .ok v 0#8 s) := by
  simp [exec, execGetcfg, h, hs, finish_eq_responded]

theorem exec_getcfg_of_none (hs : s.ph = .idle) (h : s.readConfig idx = none) :
    exec (.getcfg idx) s = .next (errored .invalidRegisterAddress s) := by
  simp [exec, execGetcfg, h, hs, takeError_at_idle]

/-- Settles O42: the write of the index's register, with the bits of `DATA` by `configOperand_low`, or of none. -/
theorem setcfgWritesOneRegister : Obligations.SetcfgWritesOneRegister := by
  intro r s hopc hs
  refine ⟨_, _, congrArg Except.ok (decodeRequest_setcfg hopc), rfl, fun hidx => ?_, fun hidx => ?_, fun hidx => ?_,
    fun hidx => exec_setcfg_of_none hs (writeConfig_of_noRegister hidx _ _)⟩
  · rw [hidx]
    exact exec_setcfg_of_some hs rfl
  · rw [hidx, ← configOperand_low (.inl rfl)]
    exact exec_setcfg_of_some hs rfl
  · rw [hidx, ← configOperand_low (.inr rfl)]
    exact exec_setcfg_of_some hs rfl

/-- Settles O43: the read of the index's register, or of none; a 32-bit register is read with zeros above it. -/
theorem getcfgReadsOneRegister : Obligations.GetcfgReadsOneRegister := by
  intro r s hopc hs
  refine ⟨_, congrArg Except.ok (decodeRequest_getcfg hopc), rfl, fun hidx => ?_, fun hidx => ?_, fun hidx => ?_,
    fun hidx => exec_getcfg_of_none hs (readConfig_of_noRegister hidx _)⟩
  · rw [hidx]
    exact exec_getcfg_of_some hs rfl
  · rw [hidx, ← word32_setWidth]
    exact exec_getcfg_of_some hs rfl
  · rw [hidx, ← word32_setWidth]
    exact exec_getcfg_of_some hs rfl

/-- Settles O46: `exec_unassigned_at_idle` for the operations, `decodeRequest_unassigned` for the codes. -/
theorem unassignedCodesAreUnknown : Obligations.UnassignedCodesAreUnknown := by
  intro s hs
  exact ⟨fun i hi => exec_unassigned_at_idle hi hs, rfl, fun r hopc =>
    ⟨decodeRequest r, decodeRequest_unassigned hopc, rfl⟩⟩

end Sys2Proof.Machine
end

section
/-! SUPPORT. Responses over a step (60_exceptions.md R221, R222): every effect of a step appends no response, or one
response, as its last event and with chip-select released before it. -/

namespace Sys2Proof.Machine

variable {s t u : State}

/-- From `s` to `u` events were appended, and none of them is a response. -/
def AnswersNothing (s u : State) : Prop :=
  ∃ ev, u.trace = s.trace ++ ev ∧ ∀ e d a, Event.resp e d a ∉ ev

/-- From `s` to `u` a request was finished with `CS = 0`, and if it failed, with zeros. -/
def AnswersReleased (s u : State) : Prop :=
  ∃ v e d a, AnswersNothing s v ∧ v.cs = false ∧ (e ≠ .ok → d = 0#64 ∧ a = 0#8) ∧ u = responded e d a v

/-! ### The two forms, operation by operation -/

theorem answersNothing_of_unchanged (h : u.trace = s.trace) : AnswersNothing s u :=
  ⟨[], by simp [h], by simp⟩

theorem answersNothing_submitted (k : SubmitKind) (l : List Byte) (a : Answer) (s : State) :
    AnswersNothing s (submitted k l a s) :=
  ⟨_, submitted_trace k l a s, by simp⟩

theorem answersNothing_deselected (h : AnswersNothing s u) : AnswersNothing s (deselected u) := by
  obtain ⟨ev, htrace, hev⟩ := h
  exact ⟨ev ++ if u.cs then [.csDown] else [], by simp [deselected, htrace], by cases u.cs <;> simpa using hev⟩

/-- The end of a transaction releases chip-select before the response (41_sequencer.md R140, 60_exceptions.md R222). -/
theorem answersReleased_ended {e : Status} {d : Word64} {a : Byte} (hzero : e ≠ .ok → d = 0#64 ∧ a = 0#8)
    (h : AnswersNothing s u) : AnswersReleased s (responded e d a (deselected u)) :=
  ⟨_, e, d, a, answersNothing_deselected h, rfl, hzero, rfl⟩

theorem answersReleased_errored (e : Status) (h : AnswersNothing s u) :
    AnswersReleased s (errored e (deselected u)) :=
  answersReleased_ended (fun _ => ⟨rfl, rfl⟩) h

theorem seqEffect_answers (h : SeqEffect s u) : AnswersNothing s u ∨ AnswersReleased s u := by
  cases h with
  | waits _ => exact .inl (answersNothing_of_unchanged rfl)
  | advances _ _ _ => exact .inl (answersNothing_of_unchanged rfl)
  | submits k l p _ _ =>
    have hsub := fun a => answersNothing_submitted k l a s
    cases s.tpAnswer with
    | accepted => exact .inl (hsub .accepted)
    | busy => exact .inr (answersReleased_errored _ (hsub .busy))
    | fail => exact .inr (answersReleased_errored _ (hsub .fail))
  | releases _ _ => exact .inr (answersReleased_ended (absurd rfl) (answersNothing_of_unchanged rfl))
  | timesOut _ => exact .inr (answersReleased_errored _ (answersNothing_of_unchanged rfl))

theorem tpMove_answersNothing (s : State) : AnswersNothing s s.tpMove := by
  obtain htrace | ⟨l, htrace⟩ := tpMove_trace s
  · exact answersNothing_of_unchanged htrace
  · exact ⟨_, htrace, by simp⟩

/-- A request finished at issue leaves chip-select as it was, which is released at IDLE (41_sequencer.md R121). -/
theorem requestEffect_answers (h : RequestEffect s u) (hcs : s.cs = false) :
    AnswersNothing s u ∨ AnswersReleased s u := by
  cases h with
  | responds s' e d a hcfg hzero =>
    have hs' : s'.trace = s.trace ∧ s'.cs = s.cs := by obtain rfl | ⟨x, y, z, rfl⟩ := hcfg <;> exact ⟨rfl, rfl⟩
    exact .inr ⟨s', e, d, a, answersNothing_of_unchanged hs'.1, hs'.2.trans hcs, hzero, rfl⟩
  | accepts k n tx _ _ _ => exact .inl (accepted_keepsResult k n tx s).1

/-! ### The step -/

/-- At IDLE no transaction holds chip-select (10_state.md R24). -/
theorem cs_released_of_idle (hinv : Inv s) (hs : s.ph = .idle) : s.cs = false := by
  simpa [hs] using hinv.cs_iff

theorem step_answers (hinv : Inv s) (h : step s = .next t) :
    ∃ u, t = u.redraw ∧ (AnswersNothing s u ∨ AnswersReleased s u) := by
  obtain ⟨u, rfl, hu⟩ := step_effect s h
  refine ⟨u, rfl, ?_⟩
  cases hu with
  | waits _ => exact .inl (answersNothing_of_unchanged rfl)
  | issues r rest _ _ hs _ _ he =>
    have hcs := cs_released_of_idle hinv hs
    have hanswer := requestEffect_answers he hcs
    exact hanswer
  | sequences _ => exact seqEffect_answers (seqMove_cases s)
  | transports _ => exact .inl (tpMove_answersNothing s)
  | resets _ => exact .inl ⟨_, State.rstMove_trace s, by cases s.cs <;> simp [csEvents]⟩

/-- A response in the trace of a step is the one that ends it, reported with chip-select released. -/
theorem step_of_response {ev : List Event} {e : Status} {d : Word64} {a : Byte} (hinv : Inv s) (h : step s = .next t)
    (htrace : t.trace = s.trace ++ ev) (hresp : Event.resp e d a ∈ ev) :
    ∃ v, v.cs = false ∧ (e ≠ .ok → d = 0#64 ∧ a = 0#8) ∧ t = (responded e d a v).redraw := by
  obtain ⟨u, rfl, ⟨ev', htrace', hnone⟩ | ⟨v, e', d', a', ⟨ev', htrace', hnone⟩, hcs, hzero, rfl⟩⟩ :=
    step_answers hinv h
  · obtain rfl : ev = ev' := List.append_cancel_left (htrace.symm.trans htrace')
    exact absurd hresp (hnone e d a)
  · have hresponded : (responded e' d' a' v).redraw.trace = s.trace ++ (ev' ++ [.resp e' d' a']) := by
      simp [responded, htrace']
    obtain rfl := List.append_cancel_left (htrace.symm.trans hresponded)
    obtain ⟨rfl, rfl, rfl⟩ : e = e' ∧ d = d' ∧ a = a' := by simpa [hnone] using hresp
    exact ⟨v, hcs, hzero, rfl⟩

/-- Settles O28: by `step_of_response` the step ends in `responded`, whose registers are the response's. -/
theorem responsesLeaveTheBlockReady : Obligations.ResponsesLeaveTheBlockReady := by
  intro s t ev e d a hinv h htrace hresp
  obtain ⟨v, hcs, hzero, rfl⟩ := step_of_response hinv h htrace hresp
  exact ⟨rfl, hcs, rfl, rfl, rfl, rfl, hzero⟩

end Sys2Proof.Machine
end

section
/-! SUPPORT. Reset: what `RST` writes and what it leaves, and that power-on is one (70_reset_and_hazards.md section 1).
Settles O30. -/

namespace Sys2Proof.Machine

variable (s : State)

/-- `RST` writes its list whatever the state was (70_reset_and_hazards.md R250). -/
theorem atReset_rstMove : atReset s.rstMove :=
  ⟨rfl, rfl, rfl, rfl, rfl, rfl, rfl, rfl, rfl, rfl, rfl, rfl⟩

/-- The list is of elements a redraw keeps. -/
theorem atReset_redraw : atReset s.redraw ↔ atReset s := Iff.rfl

theorem atReset_reset : atReset State.reset :=
  ⟨rfl, rfl, rfl, rfl, rfl, rfl, rfl, rfl, rfl, rfl, rfl, rfl⟩

/-- Settles O30: RST's turn is `rstMove` (`step_rst`), which writes the list; its frame is by computation, its trace
by `rstMove_trace`. -/
theorem resetWritesItsList : Obligations.ResetWritesItsList := by
  refine ⟨fun s ha => ⟨s.rstMove.redraw, step_rst s ha, ?_, rfl, rfl, rfl, rfl, rfl, ?_⟩, atReset_reset⟩
  · exact (atReset_redraw _).2 (atReset_rstMove s)
  · rw [State.redraw_trace, State.rstMove_trace, csEvents_false]

end Sys2Proof.Machine
end

section
/-! SUPPORT. The two encodings and their decoders (30_encoding.md sections 1 and 2): the round trips, and words written
out from the spec. -/

namespace Sys2Proof

/-- Settles O1: each operand stands whole in a field of its own (`decode_encode_of_wellFormed`). -/
theorem decodeInvertsEncode : Obligations.DecodeInvertsEncode :=
  fun _ h => decode_encode_of_wellFormed h

/-- A frame of the block's device is its operation and its register put together again. -/
theorem frame_of_operation {b : Byte} {op : BitVec 2} (hdev : frameDev b = Config.deviceAddress)
    (hop : frameOp b = op) : frame Config.deviceAddress (frameReg b) op = b := by
  rw [← hdev, ← hop, frame_of_fields]

/-- Settles O2: a byte with an operation is the frame of its fields, and a fast command is its one byte. -/
theorem encodeInvertsWireDecode : Obligations.EncodeInvertsWireDecode := by
  intro b i h
  simp only [decode, decodeWire] at h
  split_ifs at h with hdev hread hwrite h68 h6C h70 h78 <;> cases h
  · exact congrArg Fetched.wire (frame_of_operation (not_not.1 hdev) hread)
  · exact congrArg Fetched.wire (frame_of_operation (not_not.1 hdev) hwrite)
  all_goals simp [encode, *]

/-- Settles O4, word by word, by computation. -/
theorem specWordsDecode : Obligations.SpecWordsDecode :=
  ⟨rfl, rfl, rfl, rfl, rfl, rfl, rfl, rfl, rfl, rfl, rfl, rfl, rfl⟩

end Sys2Proof
end

section
/-! SUPPORT. The invariant (10_state.md, 41_sequencer.md sections 2 and 4): what it asks at IDLE, and that every effect
of a step keeps it. -/

namespace Sys2Proof.Machine

variable {s t u : State}

/-! ### At IDLE -/

/-- At IDLE the invariant is of chip-select, the zeros of an error, and TP's signals. -/
theorem inv_at_idle (hs : u.ph = .idle) (hcs : u.cs = false)
    (hzero : u.respStatus ≠ .ok → u.respData = 0#64 ∧ u.respAux = 0#8)
    (htx : u.tpTxBusy = true → u.tpBusy = true) : Inv u where
  cs_iff := by simp [hs, hcs]
  len_legal h := absurd hs h
  command_legal h := absurd hs h
  fill_bytes h := absurd hs h
  wtx2_write h := by simp [hs] at h
  fast_one_phase _ := by simp [hs]
  resp_invalid h := absurd hs h
  poll_below h := by simp [hs, waiting] at h
  error_zero := hzero
  tx_busy := htx
  completion_due _ h := by simp [hs, waiting] at h

/-- Settles O32: at reset the block is at IDLE and TP idle (log 9). -/
theorem resetMeetsTheInvariant : Obligations.ResetMeetsTheInvariant :=
  inv_at_idle rfl rfl (absurd rfl) (by simp [State.reset])

/-- The end of a transaction meets the invariant (60_exceptions.md R221, R222). -/
theorem inv_ended {e : Status} {d : Word64} {a : Byte} (hzero : e ≠ .ok → d = 0#64 ∧ a = 0#8)
    (htx : s.tpTxBusy = true → s.tpBusy = true) : Inv (responded e d a (deselected s)) :=
  inv_at_idle rfl rfl hzero htx

theorem inv_errored (e : Status) (htx : s.tpTxBusy = true → s.tpBusy = true) : Inv (errored e (deselected s)) :=
  inv_ended (fun _ => ⟨rfl, rfl⟩) htx

theorem inv_rstMove (hinv : Inv s) : Inv s.rstMove :=
  inv_at_idle rfl rfl (absurd rfl) hinv.tx_busy

/-! ### Requests -/

/-- A request of HOST, at IDLE, keeps the invariant (41_sequencer.md R121). -/
theorem inv_requestEffect (hinv : Inv s) (hs : s.ph = .idle) (h : RequestEffect s u) : Inv u := by
  have hcs := cs_released_of_idle hinv hs
  cases h with
  | responds s' e d a hcfg hzero =>
    have hs' : s'.cs = s.cs ∧ s'.tpTxBusy = s.tpTxBusy ∧ s'.tpBusy = s.tpBusy := by
      obtain rfl | ⟨x, y, z, rfl⟩ := hcfg <;> exact ⟨rfl, rfl, rfl⟩
    obtain ⟨hcs', htx, hbusy⟩ := hs'
    exact inv_at_idle rfl (hcs'.trans hcs) hzero (by simpa [responded, htx, hbusy] using hinv.tx_busy)
  | accepts k n tx hlen hcmd hfill =>
    exact { hinv with
      cs_iff := by simp [accepted]
      len_legal := fun _ => hlen
      command_legal := fun _ => hcmd
      fill_bytes := fun _ => hfill
      wtx2_write := by simp [accepted]
      fast_one_phase := by simp [accepted]
      resp_invalid := fun _ => rfl
      poll_below := by simp [accepted, waiting]
      completion_due := by simp [accepted, waiting] }

/-! ### SEQ -/

/-- A transaction in flight may go on to a phase on the path of its kind, if the poll counter is below the limit there
and a wait there is owed a completion. -/
theorem inv_of_phase {p : Phase} {c : Word32} (hinv : Inv s) (hs : s.ph ≠ .idle) (hp : p ≠ .idle)
    (hwrite : p = .wtx2 → s.tKind = .write) (hfast : s.tKind = .fast → p = .final)
    (hpoll : waiting p = true → s.cfgPollLimit ≠ 0#32 → c.toNat < s.cfgPollLimit.toNat)
    (hdue : s.notify = true → waiting p = true → s.tpBusy = true ∨ s.done = true) :
    Inv { s with ph := p, pollCnt := c } :=
  { hinv with
    cs_iff := by simp [hinv.cs_iff, hs, hp]
    len_legal := fun _ => hinv.len_legal hs
    command_legal := fun _ => hinv.command_legal hs
    fill_bytes := fun _ => hinv.fill_bytes hs
    wtx2_write := hwrite
    fast_one_phase := fun hk => by simp [hfast hk]
    resp_invalid := fun _ => hinv.resp_invalid hs
    poll_below := hpoll
    completion_due := hdue }

/-- A counter just reset is below every limit in force (41_sequencer.md R142). -/
theorem zero_below_pollLimit {limit : Word32} (h : limit ≠ 0#32) : (0#32).toNat < limit.toNat := by
  bv_omega

/-- SEQ's submission on the way to `p` keeps the invariant, whatever TP answers. -/
theorem inv_afterAnswer (k : SubmitKind) (l : List Byte) (p : Phase) (a : Answer) (hinv : Inv s) (hs : s.ph ≠ .idle)
    (hp : p ≠ .idle) (hwrite : p = .wtx2 → s.tKind = .write) (hfast : s.tKind = .fast → p = .final) :
    Inv (afterAnswer k l p a s) := by
  cases a with
  | accepted =>
    have hsub : Inv (submitted k l .accepted s) :=
      { hinv with
        tx_busy := fun _ => rfl
        completion_due := fun _ _ => .inl rfl }
    exact inv_of_phase hsub hs hp hwrite hfast (fun _ => zero_below_pollLimit) fun _ _ => .inl rfl
  | busy | fail => exact inv_errored _ hinv.tx_busy

/-- A wait at a false condition keeps the invariant: the counter stays below the limit, or the transaction ends. -/
theorem inv_heldOrPolled (hinv : Inv s) : Inv (heldOrPolled s) := by
  unfold heldOrPolled
  split_ifs with hunbounded hbelow
  · exact hinv
  · exact { hinv with poll_below := fun _ _ => by simp only; bv_omega }
  · exact inv_errored _ hinv.tx_busy

theorem inv_release (hinv : Inv s) : Inv s.release := by
  by_cases hk : s.tKind = .read
  · rw [release_of_read hk]
    exact inv_ended (absurd rfl) hinv.tx_busy
  · rw [release_of_not_read hk]
    exact inv_ended (absurd rfl) hinv.tx_busy

/-- The phases between START and FINAL are not on the path of a fast command (41_sequencer.md R130). -/
theorem not_fast_of_frame_phase (hinv : Inv s) (hs : s.ph = .wtx1 ∨ s.ph = .p2 ∨ s.ph = .wtx2) :
    s.tKind ≠ .fast := by
  intro hk
  obtain ⟨hwtx1, hp2, hwtx2⟩ := hinv.fast_one_phase hk
  exact hs.elim hwtx1 (Or.elim · hp2 hwtx2)

/-- At P2 a transaction that is no read is a write. -/
theorem write_of_p2 (hinv : Inv s) (hs : s.ph = .p2) (hk : s.tKind ≠ .read) : s.tKind = .write := by
  have hfast := not_fast_of_frame_phase hinv (.inr (.inl hs))
  cases h : s.tKind <;> simp_all

/-- SEQ's turn keeps the invariant, phase by phase (41_sequencer.md R130 to R143). -/
theorem inv_seqMove (hinv : Inv s) : Inv s.seqMove := by
  by_cases hwait : waiting s.ph = true ∧ waitOver s = false
  · rw [seqMove_of_waiting hwait.1 hwait.2]
    exact inv_heldOrPolled hinv
  cases hs : s.ph <;> simp only [hs, waiting, waitOver, true_and, Bool.not_eq_false, Bool.not_eq_true',
    Bool.and_eq_true] at hwait
  case idle => rwa [seqMove_idle hs]
  case start =>
    rw [seqMove_start hs]
    exact inv_afterAnswer _ _ _ _ hinv (by simp [hs]) (by split <;> simp) (by split <;> simp) fun hk => if_pos hk
  case wtx1 =>
    rw [seqMove_wtx1 hs hwait]
    exact inv_of_phase hinv (by simp [hs]) (by simp) (by simp) (absurd · (not_fast_of_frame_phase hinv (.inl hs)))
      (by simp [waiting]) (by simp [waiting])
  case p2 =>
    have hfast := not_fast_of_frame_phase hinv (.inr (.inl hs))
    by_cases hk : s.tKind = .read
    · rw [seqMove_p2_read hs hk]
      exact inv_afterAnswer _ _ _ _ hinv (by simp [hs]) (by simp) (by simp) fun _ => rfl
    · rw [seqMove_p2_write hs hk]
      exact inv_afterAnswer _ _ _ _ hinv (by simp [hs]) (by simp) (fun _ => write_of_p2 hinv hs hk)
        (absurd · hfast)
  case wtx2 =>
    rw [seqMove_wtx2 hs hwait]
    exact inv_of_phase hinv (by simp [hs]) (by simp) (by simp) (fun _ => rfl) (fun _ => zero_below_pollLimit)
      fun hn _ => hinv.completion_due hn (by simp [hs, waiting])
  case final =>
    rw [seqMove_final hs hwait.1 hwait.2]
    exact inv_release hinv

/-! ### TP -/

/-- TP's turn keeps the invariant: a completion that is no longer owed has been delivered (41_sequencer.md R125). -/
theorem inv_tpMove (hinv : Inv s) : Inv s.tpMove := by
  obtain ⟨htx, h⟩ | ⟨htx, hbusy, h⟩ | ⟨-, -, h⟩ := tpMove_cases s <;> rw [h]
  · exact { hinv with tx_busy := by simp }
  · rw [tpComplete_eq]
    exact { hinv with
      tx_busy := by simp [htx]
      completion_due := fun hn _ => .inr (by simp [show s.notify = true from hn]) }
  · exact hinv

/-! ### The step -/

/-- The invariant is of elements that a redraw keeps. -/
theorem inv_redraw (hinv : Inv s) : Inv s.redraw := { hinv with }

/-- The invariant says nothing of HOST's requests. -/
theorem inv_requests (rest : List Request) (hinv : Inv s) : Inv { s with requests := rest } := { hinv with }

theorem inv_stepEffect (hinv : Inv s) (h : StepEffect s u) : Inv u := by
  cases h with
  | waits _ => exact hinv
  | issues r rest u _ hs _ _ he => exact inv_requestEffect (inv_requests rest hinv) hs he
  | sequences _ => exact inv_seqMove hinv
  | transports _ => exact inv_tpMove hinv
  | resets _ => exact inv_rstMove hinv

theorem step_keeps_inv (hinv : Inv s) (h : step s = .next t) : Inv t := by
  obtain ⟨u, rfl, hu⟩ := step_effect s h
  exact inv_redraw (inv_stepEffect hinv hu)

/-- Settles O31: each agent's effect keeps the invariant (`inv_stepEffect`), and so does the redraw. -/
theorem stepKeepsTheInvariant : Obligations.StepKeepsTheInvariant :=
  fun _ _ hinv h => step_keeps_inv hinv h

end Sys2Proof.Machine
end

section
/-! SUPPORT. Requests (30_encoding.md section 2, 41_sequencer.md R121): each is an issue step, and what it does depends on
its OPC: it responds, is accepted as a transaction, or writes the configuration. -/

namespace Sys2Proof.Machine

variable {s t u : State} {r : Request}

/-! ### The issue step -/

/-- What a request executes is HOST's issue step, whatever the request. -/
theorem exec_request_eq_issue (r : Request) (s : State) : ∃ t, exec (decodeRequest r) s = s.issue t := by
  unfold decodeRequest
  split <;> exact ⟨_, rfl⟩

theorem idle_of_exec_request (h : exec (decodeRequest r) s = .next t) : s.ph = .idle := by
  obtain ⟨u, hu⟩ := exec_request_eq_issue r s
  exact ((issue_next_iff s u t).1 (hu ▸ h)).1

theorem exec_request_at_idle (r : Request) (hs : s.ph = .idle) : ∃ t, exec (decodeRequest r) s = .next t := by
  obtain ⟨u, hu⟩ := exec_request_eq_issue r s
  exact ⟨u, by rw [hu, issue_at_idle s u hs]⟩

theorem exec_request_not_ready (r : Request) (hs : s.ph ≠ .idle) :
    exec (decodeRequest r) s = .refused .hostNotReady := by
  obtain ⟨u, hu⟩ := exec_request_eq_issue r s
  rw [hu, State.issue, if_neg hs]

/-- Settles O25: HOST's empty turn is `step_host_waits`, and each request's `exec` an issue step. -/
theorem hostWaitsForReady : Obligations.HostWaitsForReady := by
  refine fun s hs => ⟨fun ha => step_host_waits s ha (.inl hs), fun r i hi => ?_⟩
  obtain rfl : decodeRequest r = i := Except.ok.inj hi
  exact exec_request_not_ready r hs

/-! ### Every step has a next state -/

theorem step_host_next (ha : s.draw.agent = .host) : ∃ t, step s = .next t := by
  by_cases hs : s.ph = .idle
  · cases hr : s.requests with
    | nil => exact ⟨_, step_host_waits s ha (.inr hr)⟩
    | cons r rest =>
      obtain ⟨u, hu⟩ := exec_request_at_idle r (s := { s with requests := rest }) hs
      exact ⟨u.redraw, by rw [step_host s ha hs hr, hu]; rfl⟩
  · exact ⟨_, step_host_waits s ha (.inl hs)⟩

theorem step_next (s : State) : ∃ t, step s = .next t := by
  cases ha : s.draw.agent with
  | host => exact step_host_next ha
  | seq => exact ⟨_, step_seq s ha⟩
  | tp => exact ⟨_, step_tp s ha⟩
  | rst => exact ⟨_, step_rst s ha⟩

/-- Settles O27, agent by agent (`step_next`). -/
theorem everyStepHasANextState : Obligations.EveryStepHasANextState := step_next

/-- Settles O26: HOST's step is `step_host`, and SEQ's at START fetches the byte in `TX[0]`. -/
theorem stepRunsTheDecodedInstruction : Obligations.StepRunsTheDecodedInstruction := by
  refine ⟨fun s r rest i ha hs hr hi => ?_, fun s i ha hs hi => ?_⟩
  · obtain rfl : decodeRequest r = i := Except.ok.inj hi
    exact step_host s ha hs hr
  · have hfetch : s.fetch = some (.wire s.tx.s0) := by simp [State.fetch, ha, hs]
    have hport : s.takeRequest = s := by simp [State.takeRequest, ha]
    rw [step_of_fetch s hfetch hi, hport]

/-! ### What a request does, by its OPC -/

/-- From `s` to `u` a request was answered, and nothing but the response was written. -/
def OnlyResponds (s u : State) : Prop := ∃ e d a, u = responded e d a s

/-- From `s` to `u` a request was accepted as a transaction. -/
def Accepts (s u : State) : Prop := ∃ k n tx, u = accepted k n tx s

/-- From `s` to `u` a request was answered, over a write of the configuration. -/
def Configures (s u : State) : Prop :=
  ∃ x y z, OnlyResponds { s with cfgFullScale := x, cfgResolution := y, cfgPollLimit := z } u

theorem onlyResponds_finish (e : Status) (d : Word64) (a : Byte) (s : State) : OnlyResponds s (State.finish e d a s) :=
  ⟨e, d, a, rfl⟩

theorem onlyResponds_takeError (e : Status) (hs : s.ph = .idle) : OnlyResponds s (State.takeError e s) :=
  ⟨e, 0#64, 0#8, takeError_at_idle s e hs⟩

theorem onlyResponds_codecResult (dev op : BitVec 2) (d : Word64) (hs : s.ph = .idle) :
    OnlyResponds s (s.codecResult dev op d) := by
  unfold State.codecResult
  split
  · exact onlyResponds_takeError _ hs
  · exact onlyResponds_finish _ _ _ s

theorem onlyResponds_finishInRange (result : Option (Word64 × Byte)) (hs : s.ph = .idle) :
    OnlyResponds s (s.finishInRange result) := by
  unfold State.finishInRange
  split
  · exact onlyResponds_finish _ _ _ s
  · exact onlyResponds_takeError _ hs

theorem issueTransfer_cases (k : TransferKind) (reg len : BitVec 4) (l : List Byte) (hs : s.ph = .idle) :
    OnlyResponds s (s.issueTransfer k reg len l) ∨ Accepts s (s.issueTransfer k reg len l) := by
  unfold State.issueTransfer
  split
  · exact .inl (onlyResponds_takeError _ hs)
  · exact .inr ⟨_, _, _, acceptTransaction_eq_accepted ..⟩

theorem configures_of_writeConfig {idx : BitVec 4} {v : Word64} (h : s.writeConfig idx v = some t) (e : Status)
    (d : Word64) (a : Byte) : Configures s (State.finish e d a t) := by
  unfold State.writeConfig at h
  split_ifs at h <;> cases h <;> exact ⟨_, _, _, e, d, a, rfl⟩

/-- The inversion of a request, by its OPC: all but `SETCFG` leave the configuration, and only `RDREG`, `WRREG` and
`FAST` can be accepted as transactions. -/
theorem request_opc_cases (h : exec (decodeRequest r) s = .next t) :
    OnlyResponds s t ∨ (ctlOpc r.ctl ∈ [0x3#4, 0x4#4, 0x5#4] ∧ Accepts s t) ∨
      (ctlOpc r.ctl = 0x9#4 ∧ Configures s t) := by
  have hs := idle_of_exec_request h
  have herror := fun e => onlyResponds_takeError e hs
  have hopc : ∀ n : BitVec 4, (ctlOpc r.ctl).toNat = n.toNat → ctlOpc r.ctl = n := fun _ => BitVec.eq_of_toNat_eq
  unfold decodeRequest at h
  -- Case `h_k` is OPC `k - 1`.
  split at h <;> obtain ⟨-, rfl⟩ := (issue_next_iff s _ t).1 h
  case h_2 | h_3 => exact .inl (onlyResponds_codecResult _ _ _ hs)
  case h_4 hn => exact (issueTransfer_cases _ _ _ _ hs).imp_right fun ha => .inl ⟨by simp [hopc 0x3#4 hn], ha⟩
  case h_5 hn => exact (issueTransfer_cases _ _ _ _ hs).imp_right fun ha => .inl ⟨by simp [hopc 0x4#4 hn], ha⟩
  case h_6 hn => exact .inr (.inl ⟨by simp [hopc 0x5#4 hn], _, _, _, acceptTransaction_eq_accepted ..⟩)
  case h_7 => exact .inl (onlyResponds_finish _ _ _ s)
  case h_8 => exact .inl (onlyResponds_finishInRange _ hs)
  case h_9 =>
    left
    split
    · exact herror _
    · exact onlyResponds_finishInRange _ hs
  case h_10 hn =>
    split
    · rename_i hwrite
      exact .inr (.inr ⟨hopc 0x9#4 hn, configures_of_writeConfig hwrite _ _ _⟩)
    · exact .inl (herror _)
  case h_11 =>
    left
    split
    · exact onlyResponds_finish _ _ _ s
    · exact herror _
  all_goals exact .inl (herror _)

/-- Settles O47: each form of `request_opc_cases` writes only what its rule names. -/
theorem requestFrame : Obligations.RequestFrame := by
  intro r i s t hi h
  obtain rfl : decodeRequest r = i := Except.ok.inj hi
  have hs := idle_of_exec_request h
  obtain ⟨e, d, a, rfl⟩ | ⟨hopc, k, n, tx, rfl⟩ | ⟨hopc, x, y, z, e, d, a, rfl⟩ := request_opc_cases h
  · exact ⟨rfl, rfl, rfl, rfl, rfl, rfl, rfl, rfl, rfl, rfl, fun _ => ⟨rfl, rfl, rfl, rfl, rfl⟩,
      fun _ => ⟨rfl, rfl, rfl⟩⟩
  · exact ⟨rfl, rfl, rfl, rfl, rfl, rfl, rfl, rfl, rfl, rfl, fun hne => absurd hopc hne, fun _ => ⟨rfl, rfl, rfl⟩⟩
  · exact ⟨rfl, rfl, rfl, rfl, rfl, rfl, rfl, rfl, rfl, rfl, fun _ => ⟨rfl, rfl, rfl, rfl, rfl⟩,
      fun hne => absurd hopc hne⟩

end Sys2Proof.Machine
end

section
/-! SUPPORT. The issue steps of the three transaction requests, accepted (41_sequencer.md section 5), and the bytes they
latch (30_encoding.md R76, R80). -/

namespace Sys2Proof.Machine

variable {s : State} {r : Request} {reg len : BitVec 4}

/-! ### The requests -/

theorem decodeRequest_rdreg (h : ctlOpc r.ctl = 0x3#4) : decodeRequest r = .rdreg (ctlReg r.ctl) (ctlLen r.ctl) := by
  simp [decodeRequest, h]

theorem decodeRequest_wrreg (h : ctlOpc r.ctl = 0x4#4) :
    decodeRequest r = .wrreg (ctlReg r.ctl) (ctlLen r.ctl) (writePayload (ctlLen r.ctl) r.data) := by
  simp [decodeRequest, h]

theorem decodeRequest_fast (h : ctlOpc r.ctl = 0x5#4) : decodeRequest r = .fast (fastOfSel (ctlSel r.ctl)) := by
  simp [decodeRequest, h]

/-! ### Accepted at IDLE -/

/-- A register of the catalog and a length from 1 to 4 pass the validation (41_sequencer.md R150, R155). -/
theorem transferError_eq_none (hreg : reg ∉ [0xB#4, 0xC#4, 0xE#4]) (hmin : 1 ≤ len.toNat) (hmax : len.toNat ≤ 4) :
    transferError reg len = none := by
  obtain ⟨e, he⟩ := Option.ne_none_iff_exists'.1 (mt catalog_eq_none_iff.1 hreg)
  exact transferError_of_catalog he ⟨hmin, hmax⟩

theorem exec_rdreg_accepted (hs : s.ph = .idle) (h : transferError reg len = none) :
    exec (.rdreg reg len) s = .next (accepted .read (len.setWidth 3)
      (writeSlots s.tx (frame Config.deviceAddress reg opRead :: List.replicate len.toNat Config.fillByte)) s) := by
  simp [exec, execRdreg, State.issueTransfer, h, hs, acceptTransaction_eq_accepted]

theorem exec_wrreg_accepted (v : Word32) (hs : s.ph = .idle) (h : transferError reg len = none) :
    exec (.wrreg reg len v) s = .next (accepted .write (len.setWidth 3)
      (writeSlots s.tx (frame Config.deviceAddress reg opWrite :: payloadBytes len.toNat v)) s) := by
  simp [exec, execWrreg, State.issueTransfer, h, hs, acceptTransaction_eq_accepted]

theorem exec_fast_accepted (cmd : FastCommand) (hs : s.ph = .idle) :
    exec (.fast cmd) s = .next (accepted .fast 1#3 { s.tx with s0 := fastByte cmd } s) := by
  rw [exec, execFast, issue_at_idle s _ hs, acceptTransaction_eq_accepted]
  rfl

/-! ### The latched bytes -/

/-- The frames of a register as numbers. -/
theorem readFrame_eq_add (reg : BitVec 4) : frame Config.deviceAddress reg opRead = 0x41#8 + reg.setWidth 8 * 4#8 := by
  revert reg
  decide

theorem writeFrame_eq_add (reg : BitVec 4) :
    frame Config.deviceAddress reg opWrite = 0x42#8 + reg.setWidth 8 * 4#8 := by
  revert reg
  decide

/-- A byte of the payload is the byte of `DATA` it was taken from. -/
theorem extractLsb'_writePayload {start : Nat} (hlen : 1 ≤ len.toNat ∧ len.toNat ≤ Config.maxLength)
    (hstart : start + 8 ≤ 8 * len.toNat) (data : Word64) :
    (writePayload len data).extractLsb' start 8 = data.extractLsb' start 8 := by
  apply BitVec.eq_of_getLsbD_eq
  intro i hi
  have hbit : start + i < 8 * len.toNat := by omega
  have hkept : (writePayload len data).getLsbD (start + i) = data.getLsbD (start + i) := by
    rw [← BitVec.testBit_toNat, writePayload_toNat hlen, Nat.testBit_mod_two_pow]
    simp [hbit, BitVec.getLsbD]
  rw [BitVec.getLsbD_extractLsb', BitVec.getLsbD_extractLsb', hkept]

/-- A read latches its frame and fill bytes, and leaves the slots past its length. -/
theorem writeSlots_fillBytes (b : Buffer) (f : Byte) (hmin : 1 ≤ len.toNat) (hmax : len.toNat ≤ 4) :
    writeSlots b (f :: List.replicate len.toNat Config.fillByte) =
      { s0 := f
        s1 := 0x00#8
        s2 := if 2 ≤ len.toNat then 0x00#8 else b.s2
        s3 := if 3 ≤ len.toNat then 0x00#8 else b.s3
        s4 := if 4 ≤ len.toNat then 0x00#8 else b.s4 } := by
  generalize len.toNat = n at *
  interval_cases n <;> rfl

/-- Settles O9: `exec_rdreg_accepted`, the latched slots by `writeSlots_fillBytes`. -/
theorem rdregLatchesARead : Obligations.RdregLatchesARead := by
  rintro r s reg len hopc rfl rfl hs
  refine ⟨congrArg _ (decodeRequest_rdreg hopc), fun hreg hmin hmax => ?_⟩
  rw [exec_rdreg_accepted hs (transferError_eq_none hreg hmin hmax), writeSlots_fillBytes _ _ hmin hmax,
    readFrame_eq_add]

/-- Settles O10: `exec_wrreg_accepted`; the latched bytes of each length are those of `DATA` by
`extractLsb'_writePayload`. -/
theorem wrregLatchesAWrite : Obligations.WrregLatchesAWrite := by
  rintro r s reg len hopc rfl hlen hs
  have hdecode := decodeRequest_wrreg hopc
  rw [show ctlLen r.ctl = len from hlen] at hdecode
  refine ⟨writePayload len r.data, congrArg _ hdecode, fun hreg => ?_⟩
  have hexec := fun hmin hmax =>
    exec_wrreg_accepted (writePayload len r.data) hs (transferError_eq_none (len := len) hreg hmin hmax)
  have hbyte := fun start hlegal hstart => extractLsb'_writePayload (len := len) (start := start) hlegal hstart r.data
  refine ⟨writeSlots s.tx (frame Config.deviceAddress (ctlReg r.ctl) opWrite ::
    payloadBytes len.toNat (writePayload len r.data)), writeFrame_eq_add _, ?_, ?_, ?_, ?_⟩ <;> rintro rfl
  · exact ⟨hexec (by decide) (by decide), hbyte 0 (by decide) (by decide), rfl, rfl, rfl⟩
  · exact ⟨hexec (by decide) (by decide), hbyte 8 (by decide) (by decide), hbyte 0 (by decide) (by decide), rfl, rfl⟩
  · exact ⟨hexec (by decide) (by decide), hbyte 16 (by decide) (by decide), hbyte 8 (by decide) (by decide),
      hbyte 0 (by decide) (by decide), rfl⟩
  · exact ⟨hexec (by decide) (by decide), hbyte 24 (by decide) (by decide), hbyte 16 (by decide) (by decide),
      hbyte 8 (by decide) (by decide), hbyte 0 (by decide) (by decide)⟩

/-- Settles O11: the selector names the command (30_encoding.md R80), which `exec_fast_accepted` latches. -/
theorem fastLatchesACommand : Obligations.FastLatchesACommand := by
  intro r s hopc hs
  have hdecode : ∀ sel, r.ctl.extractLsb' 14 2 = sel → decode (.request r) = .ok (.fast (fastOfSel sel)) := by
    rintro _ rfl
    exact congrArg _ (decodeRequest_fast hopc)
  have hexec := fun cmd => exec_fast_accepted cmd hs
  exact ⟨fun h => ⟨hdecode _ h, hexec _⟩, fun h => ⟨hdecode _ h, hexec _⟩, fun h => ⟨hdecode _ h, hexec _⟩,
    fun h => ⟨hdecode _ h, hexec _⟩⟩

end Sys2Proof.Machine
end

section
/-! SUPPORT. What the turns of SEQ and TP leave unchanged, field by field (41_sequencer.md section 4, "Flags written"),
the command bytes (30_encoding.md R73), and the frames of a whole step. -/

namespace Sys2Proof.Machine

variable {s t u : State}

/-! ### SEQ's frame -/

/-- SEQ's turn writes the phase, `CS`, `DONE`, the poll counter, the response, TP by a submission, and the trace only. -/
theorem seqMove_eq (s : State) :
    s.seqMove = { s with
      ph := s.seqMove.ph
      cs := s.seqMove.cs
      done := s.seqMove.done
      pollCnt := s.seqMove.pollCnt
      respValid := s.seqMove.respValid
      respStatus := s.seqMove.respStatus
      respData := s.seqMove.respData
      respAux := s.seqMove.respAux
      tpBusy := s.seqMove.tpBusy
      tpTxBusy := s.seqMove.tpTxBusy
      tpCur := s.seqMove.tpCur
      trace := s.seqMove.trace } := by
  generalize hu : s.seqMove = u
  have heffect : SeqEffect s u := hu ▸ seqMove_cases s
  cases heffect with
  | submits k l p _ _ => cases s.tpAnswer <;> rfl
  | _ => rfl

@[simp] theorem seqMove_tKind (s : State) : s.seqMove.tKind = s.tKind := by rw [seqMove_eq]
@[simp] theorem seqMove_tLen (s : State) : s.seqMove.tLen = s.tLen := by rw [seqMove_eq]
@[simp] theorem seqMove_tx (s : State) : s.seqMove.tx = s.tx := by rw [seqMove_eq]
@[simp] theorem seqMove_rx (s : State) : s.seqMove.rx = s.rx := by rw [seqMove_eq]
@[simp] theorem seqMove_cfgFullScale (s : State) : s.seqMove.cfgFullScale = s.cfgFullScale := by rw [seqMove_eq]
@[simp] theorem seqMove_cfgResolution (s : State) : s.seqMove.cfgResolution = s.cfgResolution := by rw [seqMove_eq]
@[simp] theorem seqMove_cfgPollLimit (s : State) : s.seqMove.cfgPollLimit = s.cfgPollLimit := by rw [seqMove_eq]
@[simp] theorem seqMove_notify (s : State) : s.seqMove.notify = s.notify := by rw [seqMove_eq]
@[simp] theorem seqMove_requests (s : State) : s.seqMove.requests = s.requests := by rw [seqMove_eq]
@[simp] theorem seqMove_draw (s : State) : s.seqMove.draw = s.draw := by rw [seqMove_eq]
@[simp] theorem seqMove_tick (s : State) : s.seqMove.tick = s.tick := by rw [seqMove_eq]

/-- SEQ clears `DONE`, and never sets it. -/
theorem seqMove_done (hdone : s.done = false) : s.seqMove.done = false := by
  generalize hu : s.seqMove = u
  have heffect : SeqEffect s u := hu ▸ seqMove_cases s
  cases heffect with
  | waits _ => exact hdone
  | advances _ _ _ => exact hdone
  | submits k l p _ _ => cases s.tpAnswer <;> rfl
  | releases _ _ => rfl
  | timesOut _ => exact hdone

/-! ### TP's frame -/

@[simp] theorem tpMove_tKind (s : State) : s.tpMove.tKind = s.tKind := by rw [tpMove_eq]
@[simp] theorem tpMove_tLen (s : State) : s.tpMove.tLen = s.tLen := by rw [tpMove_eq]
@[simp] theorem tpMove_tx (s : State) : s.tpMove.tx = s.tx := by rw [tpMove_eq]
@[simp] theorem tpMove_cfgFullScale (s : State) : s.tpMove.cfgFullScale = s.cfgFullScale := by rw [tpMove_eq]
@[simp] theorem tpMove_cfgResolution (s : State) : s.tpMove.cfgResolution = s.cfgResolution := by rw [tpMove_eq]
@[simp] theorem tpMove_cfgPollLimit (s : State) : s.tpMove.cfgPollLimit = s.cfgPollLimit := by rw [tpMove_eq]
@[simp] theorem tpMove_notify (s : State) : s.tpMove.notify = s.notify := by rw [tpMove_eq]

/-- Where TP's completion step is not enabled, its turn leaves `DONE` and `RX`. -/
theorem tpMove_of_not_completing (h : completionEnabled s = false) : s.tpMove.done = s.done ∧ s.tpMove.rx = s.rx := by
  obtain ⟨-, he⟩ | ⟨htx, hbusy, -⟩ | ⟨-, -, he⟩ := tpMove_cases s
  · rw [he]
    exact ⟨rfl, rfl⟩
  · simp [completionEnabled, htx, hbusy] at h
  · rw [he]
    exact ⟨rfl, rfl⟩

/-- The completion step never writes `RX[0]` (10_state.md R28). -/
theorem tpComplete_rx_s0 (s : State) : s.tpComplete.rx.s0 = s.rx.s0 := by
  unfold State.tpComplete
  split <;> rfl

theorem tpMove_rx_s0 (s : State) : s.tpMove.rx.s0 = s.rx.s0 := by
  obtain ⟨-, h⟩ | ⟨-, -, h⟩ | ⟨-, -, h⟩ := tpMove_cases s <;> rw [h]
  exact tpComplete_rx_s0 s

theorem tpComplete_done (s : State) : s.tpComplete.done = (s.done || s.notify) := by rw [tpComplete_eq]

/-- TP delivers completions, and never takes one back (41_sequencer.md R125). -/
theorem tpMove_done_of_done (hdone : s.done = true) : s.tpMove.done = true := by
  obtain ⟨-, h⟩ | ⟨-, -, h⟩ | ⟨-, -, h⟩ := tpMove_cases s <;> rw [h]
  · exact hdone
  · simp [tpComplete_done, hdone]
  · exact hdone

/-- An unconnected completion does not reach `DONE` (70_reset_and_hazards.md R255). -/
theorem tpMove_done_of_unconnected (hn : s.notify = false) (hdone : s.done = false) : s.tpMove.done = false := by
  obtain ⟨-, h⟩ | ⟨-, -, h⟩ | ⟨-, -, h⟩ := tpMove_cases s <;> rw [h]
  · exact hdone
  · simp [tpComplete_done, hn, hdone]
  · exact hdone

/-! ### The notification -/

/-- No request writes `DONE` or the wiring. -/
theorem requestEffect_notification (h : RequestEffect s u) : u.done = s.done ∧ u.notify = s.notify := by
  cases h with
  | responds s' e d a hcfg _ => obtain rfl | ⟨x, y, z, rfl⟩ := hcfg <;> exact ⟨rfl, rfl⟩
  | accepts k n tx _ _ _ => exact ⟨rfl, rfl⟩

/-- The wiring is as the platform made it (70_reset_and_hazards.md R253; log 10). -/
theorem stepEffect_notify (h : StepEffect s u) : u.notify = s.notify := by
  cases h with
  | waits _ => rfl
  | issues r rest u _ _ _ _ he => exact (requestEffect_notification he).2
  | sequences _ => exact seqMove_notify s
  | transports _ => exact tpMove_notify s
  | resets _ => rfl

theorem step_notify (h : step s = .next t) : t.notify = s.notify := by
  obtain ⟨u, rfl, hu⟩ := step_effect s h
  have hn := stepEffect_notify hu
  exact hn

theorem stepEffect_done_of_unconnected (hn : s.notify = false) (hdone : s.done = false) (h : StepEffect s u) :
    u.done = false := by
  cases h with
  | waits _ => exact hdone
  | issues r rest u _ _ _ _ he => exact (requestEffect_notification he).1.trans hdone
  | sequences _ => exact seqMove_done hdone
  | transports _ => exact tpMove_done_of_unconnected hn hdone
  | resets _ => rfl

/-- Settles O24: no effect of a step sets `DONE` but a connected completion. -/
theorem unconnectedNotificationIsLost : Obligations.UnconnectedNotificationIsLost := by
  intro s t hn hdone h
  obtain ⟨u, rfl, hu⟩ := step_effect s h
  have hdone' := stepEffect_done_of_unconnected hn hdone hu
  exact ⟨hdone', (step_notify h).trans hn⟩

/-! ### The configuration -/

/-- Settles O45: the turns of SEQ and TP leave the configuration, and of the requests `SETCFG` alone writes it
(`request_opc_cases`). -/
theorem configurationIsStable : Obligations.ConfigurationIsStable := by
  intro s t h hrst
  obtain ⟨u, rfl, hu⟩ := step_effect s h
  cases hu with
  | waits _ => exact .inl ⟨rfl, rfl, rfl⟩
  | issues r rest u ha hs hr hx _ =>
    obtain ⟨e, d, a, rfl⟩ | ⟨-, k, n, tx, rfl⟩ | ⟨hopc, -⟩ := request_opc_cases hx
    · exact .inl ⟨rfl, rfl, rfl⟩
    · exact .inl ⟨rfl, rfl, rfl⟩
    · exact .inr ⟨ha, hs, r, rest, hr, hopc⟩
  | sequences _ => exact .inl (by simp)
  | transports _ => exact .inl (by simp)
  | resets ha => exact absurd ha hrst

/-- A read of an index after a write of it gives the value, cut to the register's width. -/
theorem readConfig_writeConfig_same {i : BitVec 4} {v : Word64} (h : s.writeConfig i v = some t) :
    t.readConfig i = some (if i = 0#4 then v else (v.extractLsb' 0 32).setWidth 64) := by
  unfold State.writeConfig at h
  split_ifs at h with h0 h1 h2 <;> cases h <;> simp [State.readConfig, *]

theorem readConfig_writeConfig_other {i j : BitVec 4} {v : Word64} (h : s.writeConfig i v = some t) (hij : i ≠ j) :
    t.readConfig j = s.readConfig j := by
  unfold State.writeConfig at h
  split_ifs at h with h0 h1 h2 <;> cases h <;> subst i <;> simp [State.readConfig, hij.symm]

/-- The access to a register's index succeeds (10_state.md R27). -/
theorem index_register {i : BitVec 4} (hi : i.toNat < 3) : i = 0#4 ∨ i = 1#4 ∨ i = 2#4 := by
  revert i
  decide

theorem writeConfig_of_register {i : BitVec 4} (hi : i.toNat < 3) (v : Word64) (s : State) :
    ∃ t, s.writeConfig i v = some t := by
  obtain rfl | rfl | rfl := index_register hi <;> exact ⟨_, rfl⟩

theorem readConfig_of_register {i : BitVec 4} (hi : i.toNat < 3) (s : State) : ∃ v, s.readConfig i = some v := by
  obtain rfl | rfl | rfl := index_register hi <;> exact ⟨_, rfl⟩

/-- The answer of `GETCFG` of a register is what stands there, and the response does not change that. -/
theorem getcfg_answer {i : BitVec 4} {w : Word64} (h : exec (.getcfg i) s = .next t) (hread : s.readConfig i = some w) :
    t.respData = w := by
  have hs := ((issue_next_iff _ _ _).1 h).1
  obtain rfl := Host.Outcome.next.inj ((exec_getcfg_of_some hs hread).symm.trans h)
  rfl

theorem readConfig_responded (i : BitVec 4) (e : Status) (d : Word64) (a : Byte) (s : State) :
    (responded e d a s).readConfig i = s.readConfig i := rfl

/-- Settles O44: `GETCFG` answers what `SETCFG` left at the index, by `readConfig_writeConfig_same` and
`readConfig_writeConfig_other`. -/
theorem configurationReadsBack : Obligations.ConfigurationReadsBack := by
  intro i j v s t u w hi hj hset hget hget'
  have hs := ((issue_next_iff _ _ _).1 hset).1
  obtain ⟨s', hwrite⟩ := writeConfig_of_register hi v s
  obtain rfl := Host.Outcome.next.inj ((exec_setcfg_of_some hs hwrite).symm.trans hset)
  refine ⟨?_, fun hij => ?_⟩
  · rintro rfl
    exact getcfg_answer hget ((readConfig_responded ..).trans (readConfig_writeConfig_same hwrite))
  · obtain ⟨x, hread⟩ := readConfig_of_register hj s
    have hread' := (readConfig_responded j .ok 0#64 0#8 s').trans (readConfig_writeConfig_other hwrite hij)
    rw [getcfg_answer hget (hread'.trans hread), getcfg_answer hget' hread]

/-! ### The buffers and the latch -/

/-- No request writes `RX`. -/
theorem requestEffect_rx (h : RequestEffect s u) : u.rx = s.rx := by
  cases h with
  | responds s' e d a hcfg _ => obtain rfl | ⟨x, y, z, rfl⟩ := hcfg <;> rfl
  | accepts k n tx _ _ _ => rfl

/-- Settles O49: `RX` is left by every effect but TP's completion, `TX` and the latch by every effect but a request. -/
theorem buffersHaveOneWriter : Obligations.BuffersHaveOneWriter := by
  intro s t h hrst
  obtain ⟨u, rfl, hu⟩ := step_effect s h
  simp only [State.redraw_rx, State.redraw_tx, State.redraw_tKind, State.redraw_tLen]
  cases hu with
  | waits _ => simp
  | issues r rest u ha hs _ _ he =>
    have hrx := requestEffect_rx he
    exact ⟨congrArg Buffer.s0 hrx, (absurd hrx ·), fun _ => ⟨ha, hs⟩⟩
  | sequences _ => simp
  | transports ha =>
    refine ⟨tpMove_rx_s0 s, fun hne => ⟨ha, ?_⟩, by simp⟩
    have hcompletes := mt (fun h => (tpMove_of_not_completing h).2) hne
    simpa [completionEnabled] using hcompletes
  | resets ha => exact absurd ha hrst

/-! ### The command bytes -/

/-- What a command byte executes is SEQ's sending of it. -/
theorem exec_wire_eq_sendCommand {b : Byte} {i : Instr} (hi : decode (.wire b) = .ok i) (s : State) :
    exec i s = s.sendCommand b := by
  simp only [decode, decodeWire] at hi
  split_ifs at hi with hdev hread hwrite h68 h6C h70 h78 <;> cases hi
  · exact congrArg s.sendCommand (frame_of_operation (not_not.1 hdev) hread)
  · exact congrArg s.sendCommand (frame_of_operation (not_not.1 hdev) hwrite)
  all_goals subst b; rfl

/-- A submission clears `DONE`, whatever TP answers (41_sequencer.md R131). -/
theorem afterAnswer_done (k : SubmitKind) (l : List Byte) (p : Phase) (a : Answer) (s : State) :
    (afterAnswer k l p a s).done = false := by
  cases a <;> rfl

/-- Settles O48: a command byte is SEQ's turn at START, whose frame is that of `seqMove`. -/
theorem commandByteFrame : Obligations.CommandByteFrame := by
  intro b i s t hi h
  rw [exec_wire_eq_sendCommand hi, sendCommand_next_iff] at h
  obtain ⟨⟨hs, -⟩, rfl⟩ := h
  have hmove : s.seqStart = s.seqMove := by simp [State.seqMove, hs]
  have hdone : s.seqMove.done = false := by rw [seqMove_start hs, afterAnswer_done]
  simp [hmove, hdone]

/-- A due byte, accepted, is submitted and leads to the wait of its kind. -/
theorem exec_due_byte_accepted {i : Instr} (hs : s.ph = .start) (hidle : s.tpTxBusy = false)
    (hanswer : s.draw.answer = .accepted) (hi : decode (.wire s.tx.s0) = .ok i) :
    exec i s = .next (afterAnswer .wr [s.tx.s0] (if s.tKind = .fast then .final else .wtx1) .accepted s) := by
  have hmove : s.seqStart = s.seqMove := by simp [State.seqMove, hs]
  rw [exec_due_byte s hs hi, hmove, seqMove_start hs, tpAnswer_of_idle s hidle, hanswer]

theorem decode_readFrame (reg : BitVec 4) : decode (.wire (0b01#2 ++ reg ++ 0b01#2)) = .ok (.readFrame reg) := by
  revert reg
  decide

theorem decode_writeFrame (reg : BitVec 4) : decode (.wire (0b01#2 ++ reg ++ 0b10#2)) = .ok (.writeFrame reg) := by
  revert reg
  decide

/-- Settles O13: each of the six bytes decodes to its operation, and is then sent by `exec_due_byte_accepted`. -/
theorem commandBytesAreSent : Obligations.CommandBytesAreSent := by
  intro s hs hidle hanswer
  have hframe : ∀ i, s.tKind ≠ .fast → decode (.wire s.tx.s0) = .ok i →
      exec i s = .next (afterAnswer .wr [s.tx.s0] .wtx1 .accepted s) := fun i hk hi => by
    rw [exec_due_byte_accepted hs hidle hanswer hi, if_neg hk]
  have hfast : ∀ i b, s.tKind = .fast → s.tx.s0 = b → decode (.wire b) = .ok i →
      exec i s = .next (afterAnswer .wr [b] .final .accepted s) := by
    rintro i b hk rfl hi
    rw [exec_due_byte_accepted hs hidle hanswer hi, if_pos hk]
  exact ⟨fun reg hk hb => hframe _ (by simp [hk]) (hb ▸ decode_readFrame reg),
    fun reg hk hb => hframe _ (by simp [hk]) (hb ▸ decode_writeFrame reg),
    fun hk hb => hfast _ _ hk hb rfl, fun hk hb => hfast _ _ hk hb rfl,
    fun hk hb => hfast _ _ hk hb rfl, fun hk hb => hfast _ _ hk hb rfl⟩

/-- The thirty are the frames of the thirteen registers and the four fast commands (30_encoding.md R73). -/
theorem commandBytes_cases {b : Byte} (hb : b ∈ commandBytes) :
    (∃ reg, transferError reg 1#4 = none ∧ b = frame Config.deviceAddress reg opRead) ∨
      (∃ reg, transferError reg 1#4 = none ∧ b = frame Config.deviceAddress reg opWrite) ∨
      ∃ sel, b = fastByte (fastOfSel sel) := by
  revert b
  decide

/-- Each of the thirty is latched by a request issued at IDLE. -/
theorem commandByte_latched {b : Byte} (hb : b ∈ commandBytes) (hs : s.ph = .idle) :
    ∃ i t, exec i s = .next t ∧ t.ph = .start ∧ t.tx.s0 = b := by
  obtain ⟨reg, hreg, rfl⟩ | ⟨reg, hreg, rfl⟩ | ⟨sel, rfl⟩ := commandBytes_cases hb
  · exact ⟨_, _, exec_rdreg_accepted hs hreg, rfl, rfl⟩
  · exact ⟨_, _, exec_wrreg_accepted 0#32 hs hreg, rfl, rfl⟩
  · exact ⟨_, _, exec_fast_accepted _ hs, rfl, rfl⟩

/-- A step that submits is a turn of SEQ. -/
theorem agent_of_submission {ev : List Event} {k : SubmitKind} {l : List Byte} {a : Answer} (h : step s = .next t)
    (htrace : t.trace = s.trace ++ ev) (hsub : Event.sub k l a ∈ ev) : t = s.seqMove.redraw := by
  have hnone : ¬ SubmitsNothing s t := by
    rintro ⟨ev', htrace', hev⟩
    obtain rfl : ev = ev' := List.append_cancel_left (htrace.symm.trans htrace')
    exact hev k l a hsub
  obtain ⟨u, rfl, hu⟩ := step_effect s h
  cases hu with
  | waits _ => exact absurd (submitsNothing_of_unchanged rfl) hnone
  | issues r rest u _ _ _ _ he =>
    have hissue := submitsNothing_requestEffect he
    exact absurd hissue hnone
  | sequences _ => rfl
  | transports _ => exact absurd (submitsNothing_tpMove s) hnone
  | resets _ => exact absurd ⟨_, State.rstMove_trace s, by cases s.cs <;> simp⟩ hnone

/-- What SEQ submits at START is the byte in `TX[0]`, alone (41_sequencer.md R131). -/
theorem submission_at_start {ev : List Event} {k : SubmitKind} {l : List Byte} {a : Answer} (hs : s.ph = .start)
    (h : step s = .next t) (htrace : t.trace = s.trace ++ ev) (hsub : Event.sub k l a ∈ ev) :
    k = .wr ∧ l = [s.tx.s0] := by
  obtain rfl := agent_of_submission h htrace hsub
  obtain ⟨ev', htrace', hnone⟩ :=
    afterAnswer_trace .wr [s.tx.s0] (if s.tKind = .fast then .final else .wtx1) s.tpAnswer s
  rw [State.redraw_trace, seqMove_start hs, htrace'] at htrace
  obtain rfl := List.append_cancel_left htrace
  simp only [List.mem_cons, Event.sub.injEq, hnone, or_false] at hsub
  exact ⟨hsub.1, hsub.2.1⟩

/-- Settles O5: what START submits is `TX[0]`, one of the thirty by the invariant; each is latched by
`commandByte_latched`. -/
theorem commandBytesAreTheThirty : Obligations.CommandBytesAreTheThirty := by
  refine ⟨fun s t k l a ev hinv hs h htrace hsub => ?_, fun b hb s hs => commandByte_latched hb hs⟩
  obtain ⟨rfl, rfl⟩ := submission_at_start hs h htrace hsub
  exact ⟨rfl, _, (hinv.command_legal (by simp [hs])).1, rfl⟩

end Sys2Proof.Machine
end

section
/-! SUPPORT. The success of a transaction (41_sequencer.md R140, R141): SEQ's release at FINAL is the only step of a
transaction that answers with status 0x0. -/

namespace Sys2Proof.Machine

variable {s t u : State}

/-- From `s` to `u` events were appended, and none of them is a response with status 0x0. -/
def SucceedsInNothing (s u : State) : Prop :=
  ∃ ev, u.trace = s.trace ++ ev ∧ ∀ d a, Event.resp .ok d a ∉ ev

theorem succeedsInNothing_of_answersNothing (h : AnswersNothing s u) : SucceedsInNothing s u := by
  obtain ⟨ev, htrace, hnone⟩ := h
  exact ⟨ev, htrace, hnone .ok⟩

theorem succeedsInNothing_errored {e : Status} (he : e ≠ .ok) (h : AnswersNothing s u) :
    SucceedsInNothing s (errored e (deselected u)) := by
  obtain ⟨ev, htrace, hnone⟩ := answersNothing_deselected h
  refine ⟨ev ++ [.resp e 0#64 0#8], by simp [errored, responded, htrace], fun d a hmem => ?_⟩
  simp only [List.mem_append, hnone, List.mem_singleton, Event.resp.injEq, false_or] at hmem
  exact he hmem.1.symm

theorem succeedsInNothing_afterAnswer (k : SubmitKind) (l : List Byte) (p : Phase) (a : Answer) (s : State) :
    SucceedsInNothing s (afterAnswer k l p a s) := by
  have hsub := fun a => answersNothing_submitted k l a s
  cases a with
  | accepted => exact succeedsInNothing_of_answersNothing (hsub .accepted)
  | busy => exact succeedsInNothing_errored (by decide) (hsub .busy)
  | fail => exact succeedsInNothing_errored (by decide) (hsub .fail)

theorem succeedsInNothing_heldOrPolled (s : State) : SucceedsInNothing s (heldOrPolled s) := by
  have hkept := fun (u : State) (h : u.trace = s.trace) => answersNothing_of_unchanged h
  unfold heldOrPolled
  split_ifs
  · exact succeedsInNothing_of_answersNothing (hkept _ rfl)
  · exact succeedsInNothing_of_answersNothing (hkept _ rfl)
  · exact succeedsInNothing_errored (by decide) (hkept _ rfl)

/-- SEQ's turn is the release at FINAL, with the completion there and the transport not busy, or no success. -/
theorem seqMove_release_cases (s : State) :
    (s.ph = .final ∧ s.done = true ∧ s.tpBusy = false ∧ s.seqMove = s.release) ∨ SucceedsInNothing s s.seqMove := by
  have hkept := fun (u : State) (h : u.trace = s.trace) =>
    succeedsInNothing_of_answersNothing (answersNothing_of_unchanged (s := s) (u := u) h)
  by_cases hwait : waiting s.ph = true ∧ waitOver s = false
  · rw [seqMove_of_waiting hwait.1 hwait.2]
    exact .inr (succeedsInNothing_heldOrPolled s)
  cases hs : s.ph <;> simp only [hs, waiting, waitOver, true_and, Bool.not_eq_false, Bool.not_eq_true',
    Bool.and_eq_true] at hwait
  case idle => exact .inr (hkept _ (by rw [seqMove_idle hs]))
  case start => exact .inr (seqMove_start hs ▸ succeedsInNothing_afterAnswer ..)
  case wtx1 => exact .inr (hkept _ (by rw [seqMove_wtx1 hs hwait]))
  case p2 =>
    obtain ⟨k, l, p, hmove⟩ := seqMove_of_submitting (.inr hs)
    exact .inr (hmove ▸ succeedsInNothing_afterAnswer ..)
  case wtx2 => exact .inr (hkept _ (by rw [seqMove_wtx2 hs hwait]))
  case final => exact .inl ⟨rfl, hwait.1, hwait.2, seqMove_final hs hwait.1 hwait.2⟩

/-- A success reported while a transaction is in flight is SEQ's release. -/
theorem step_of_success {ev : List Event} {d : Word64} {a : Byte} (hs : s.ph ≠ .idle) (h : step s = .next t)
    (htrace : t.trace = s.trace ++ ev) (hresp : Event.resp .ok d a ∈ ev) :
    s.ph = .final ∧ s.done = true ∧ s.tpBusy = false ∧ t = s.release.redraw := by
  have hnone : ¬ SucceedsInNothing s t := by
    rintro ⟨ev', htrace', hev⟩
    obtain rfl : ev = ev' := List.append_cancel_left (htrace.symm.trans htrace')
    exact hev d a hresp
  have hsilent := fun u (hu : AnswersNothing s u) => succeedsInNothing_of_answersNothing hu
  obtain ⟨u, rfl, hu⟩ := step_effect s h
  cases hu with
  | waits _ => exact absurd (hsilent s (answersNothing_of_unchanged rfl)) hnone
  | issues r rest u _ hidle _ _ _ => exact absurd hidle hs
  | sequences _ =>
    obtain ⟨hfinal, hdone, hbusy, hmove⟩ | hsilent := seqMove_release_cases s
    · exact ⟨hfinal, hdone, hbusy, by rw [hmove]⟩
    · exact absurd hsilent hnone
  | transports _ => exact absurd (hsilent _ (tpMove_answersNothing s)) hnone
  | resets _ => exact absurd ⟨_, State.rstMove_trace s, by cases s.cs <;> simp⟩ hnone

/-- The release leaves TP as it was. -/
theorem release_transport (s : State) : s.release.tpBusy = s.tpBusy ∧ s.release.tpTxBusy = s.tpTxBusy := by
  unfold State.release
  split <;> exact ⟨rfl, rfl⟩

/-- Settles O20: the step is SEQ's release (`step_of_success`), which needs a transport that is not busy; its transmitter
is then idle by the invariant. -/
theorem successLeavesTheTransportIdle : Obligations.SuccessLeavesTheTransportIdle := by
  intro s t ev d a hinv hs h htrace hresp
  obtain ⟨hfinal, -, hbusy, rfl⟩ := step_of_success hs h htrace hresp
  obtain ⟨hbusy', htx'⟩ := release_transport s
  have htx : s.tpTxBusy = false := by
    by_contra htx
    simpa [hbusy] using hinv.tx_busy (by simpa using htx)
  exact ⟨hfinal, hbusy'.trans hbusy, htx'.trans htx⟩

end Sys2Proof.Machine
end

section
/-! SUPPORT. Steps with given free values (logs 2, 21): the state with the draw put in, and each agent's step from it. -/

namespace Sys2Proof.Machine

/-- The state with given free values in place of the drawn ones. -/
def drawn (d : Draw) (s : State) : State := { s with draw := d }

variable {s t : State} {d : Draw}

@[simp] theorem drawn_ph (d : Draw) (s : State) : (drawn d s).ph = s.ph := rfl
@[simp] theorem drawn_cs (d : Draw) (s : State) : (drawn d s).cs = s.cs := rfl
@[simp] theorem drawn_done (d : Draw) (s : State) : (drawn d s).done = s.done := rfl
@[simp] theorem drawn_pollCnt (d : Draw) (s : State) : (drawn d s).pollCnt = s.pollCnt := rfl
@[simp] theorem drawn_tKind (d : Draw) (s : State) : (drawn d s).tKind = s.tKind := rfl
@[simp] theorem drawn_tLen (d : Draw) (s : State) : (drawn d s).tLen = s.tLen := rfl
@[simp] theorem drawn_tx (d : Draw) (s : State) : (drawn d s).tx = s.tx := rfl
@[simp] theorem drawn_rx (d : Draw) (s : State) : (drawn d s).rx = s.rx := rfl
@[simp] theorem drawn_cfgFullScale (d : Draw) (s : State) : (drawn d s).cfgFullScale = s.cfgFullScale := rfl
@[simp] theorem drawn_cfgResolution (d : Draw) (s : State) : (drawn d s).cfgResolution = s.cfgResolution := rfl
@[simp] theorem drawn_cfgPollLimit (d : Draw) (s : State) : (drawn d s).cfgPollLimit = s.cfgPollLimit := rfl
@[simp] theorem drawn_respValid (d : Draw) (s : State) : (drawn d s).respValid = s.respValid := rfl
@[simp] theorem drawn_respStatus (d : Draw) (s : State) : (drawn d s).respStatus = s.respStatus := rfl
@[simp] theorem drawn_respData (d : Draw) (s : State) : (drawn d s).respData = s.respData := rfl
@[simp] theorem drawn_respAux (d : Draw) (s : State) : (drawn d s).respAux = s.respAux := rfl
@[simp] theorem drawn_tpBusy (d : Draw) (s : State) : (drawn d s).tpBusy = s.tpBusy := rfl
@[simp] theorem drawn_tpTxBusy (d : Draw) (s : State) : (drawn d s).tpTxBusy = s.tpTxBusy := rfl
@[simp] theorem drawn_tpCur (d : Draw) (s : State) : (drawn d s).tpCur = s.tpCur := rfl
@[simp] theorem drawn_notify (d : Draw) (s : State) : (drawn d s).notify = s.notify := rfl
@[simp] theorem drawn_requests (d : Draw) (s : State) : (drawn d s).requests = s.requests := rfl
@[simp] theorem drawn_tick (d : Draw) (s : State) : (drawn d s).tick = s.tick := rfl
@[simp] theorem drawn_trace (d : Draw) (s : State) : (drawn d s).trace = s.trace := rfl
@[simp] theorem drawn_draw (d : Draw) (s : State) : (drawn d s).draw = d := rfl

/-- The next state under SEQ's turn. -/
theorem eq_seqMove_of_stepWith (ha : d.agent = .seq) (h : stepWith d s = .next t) : t = (drawn d s).seqMove.redraw :=
  (Host.Outcome.next.inj ((stepWith_seq s d ha).symm.trans h)).symm

/-- The next state under TP's turn. -/
theorem eq_tpMove_of_stepWith (ha : d.agent = .tp) (h : stepWith d s = .next t) : t = (drawn d s).tpMove.redraw :=
  (Host.Outcome.next.inj ((stepWith_tp s d ha).symm.trans h)).symm

/-- Every finite schedule has a run. -/
theorem runWith_some (ds : List Draw) (s : State) : ∃ t, runWith ds s = some t := by
  induction ds generalizing s with
  | nil => exact ⟨s, rfl⟩
  | cons d ds ih =>
    obtain ⟨u, hu⟩ := step_next (drawn d s)
    obtain ⟨t, ht⟩ := ih u
    exact ⟨t, (runWith_cons_iff s d ds t).2 ⟨u, hu, ht⟩⟩

end Sys2Proof.Machine
end

section
/-! SUPPORT. The end of a transaction (41_sequencer.md R145): what is left of it in phases and what TP still owes, the
turns of SEQ and TP that take it on, and every fair run (R127). -/

namespace Sys2Proof.Machine

variable {s t u : State}

/-! ### TP -/

theorem tpMove_of_txBusy (h : s.tpTxBusy = true) : s.tpMove = { s with tpTxBusy := false } := by
  simp [State.tpMove, h]

theorem tpMove_of_completing (htx : s.tpTxBusy = false) (hbusy : s.tpBusy = true) : s.tpMove = s.tpComplete := by
  simp [State.tpMove, htx, hbusy]

theorem tpComplete_transport (s : State) : s.tpComplete.tpBusy = false ∧ s.tpComplete.tpTxBusy = s.tpTxBusy := by
  rw [tpComplete_eq]
  exact ⟨rfl, rfl⟩

/-- The two steps TP has to take until it is idle. -/
def transportLeft (s : State) : Nat := s.tpTxBusy.toNat + s.tpBusy.toNat

theorem transportLeft_le (s : State) : transportLeft s ≤ 2 :=
  Nat.add_le_add (Bool.toNat_le _) (Bool.toNat_le _)

@[simp] theorem transportLeft_redraw (s : State) : transportLeft s.redraw = transportLeft s := rfl

@[simp] theorem transportLeft_drawn (d : Draw) (s : State) : transportLeft (drawn d s) = transportLeft s := rfl

/-- Each turn of TP is one of the steps it has to take (41_sequencer.md R125, R126). -/
theorem transportLeft_tpMove (s : State) : transportLeft s.tpMove = transportLeft s - 1 := by
  obtain ⟨htx, h⟩ | ⟨htx, hbusy, h⟩ | ⟨htx, hbusy, h⟩ := tpMove_cases s <;> rw [h]
  · simp [transportLeft, htx]
  · obtain ⟨hbusy', htx'⟩ := tpComplete_transport s
    simp [transportLeft, htx, hbusy, hbusy', htx']
  · simp [transportLeft, htx, hbusy]

/-- A turn of TP that delivers the completion it owes. -/
theorem stepWith_tp_completes {d : Draw} (ha : d.agent = .tp) (htx : s.tpTxBusy = false) (hbusy : s.tpBusy = true)
    (hn : s.notify = true) :
    ∃ t, stepWith d s = .next t ∧ t.tpBusy = false ∧ t.tpTxBusy = false ∧ t.done = true := by
  have hmove : (drawn d s).tpMove = (drawn d s).tpComplete := tpMove_of_completing htx hbusy
  obtain ⟨hbusy', htx'⟩ := tpComplete_transport (drawn d s)
  exact ⟨_, stepWith_tp s d ha, hmove ▸ hbusy', hmove ▸ htx'.trans htx,
    hmove ▸ (tpComplete_done _).trans (by simp [hn])⟩

/-- An overlapping submission: TP's next two turns end both in one completion (41_sequencer.md R127). -/
theorem stepWith_tp_twice {d d' : Draw} (ha : d.agent = .tp) (ha' : d'.agent = .tp) (hbusy : s.tpBusy = true)
    (htx : s.tpTxBusy = true) (hn : s.notify = true) (hdone : s.done = false) :
    ∃ u v, stepWith d s = .next u ∧ u.tpBusy = true ∧ u.done = false ∧
      stepWith d' u = .next v ∧ v.tpBusy = false ∧ v.tpTxBusy = false ∧ v.done = true := by
  have hfirst : stepWith d s = .next ({ drawn d s with tpTxBusy := false } : State).redraw := by
    rw [stepWith_tp s d ha]
    exact congrArg (fun u : State => Host.Outcome.next u.redraw) (tpMove_of_txBusy (s := drawn d s) htx)
  obtain ⟨v, hv, hidle⟩ :=
    stepWith_tp_completes (s := ({ drawn d s with tpTxBusy := false } : State).redraw) ha' rfl hbusy hn
  exact ⟨_, v, hfirst, hbusy, hdone, hv, hidle⟩

/-- Settles O56: what an accepted submission leaves in TP is read off `afterAnswer`, the two turns are
`stepWith_tp_twice`, and TP's turn where no completion is enabled is `tpMove_of_not_completing`. -/
theorem overlapsShareOneCompletion : Obligations.OverlapsShareOneCompletion := by
  refine ⟨fun s d d' d'' k l ev t _ hn h htrace ha' ha'' => ?_, fun s t ha h => ?_⟩
  · obtain ⟨-, -, p, rfl⟩ := step_of_submission (s := { s with draw := d }) h htrace List.mem_cons_self
    exact ⟨rfl, rfl, rfl, stepWith_tp_twice ha' ha'' rfl rfl hn rfl⟩
  · obtain rfl := Host.Outcome.next.inj ((step_tp s ha).symm.trans h)
    refine ⟨fun hne => ?_, tpMove_done_of_done⟩
    by_contra hdisabled
    obtain ⟨hdone, hrx⟩ := tpMove_of_not_completing (Bool.eq_false_iff.2 hdisabled)
    exact hne.elim (absurd hdone) (absurd hrx)

/-- Settles O57: a transmitter that stayed busy would have its idle step enabled, so TP would take it. -/
theorem fairTransmittersGoIdle : Obligations.FairTransmittersGoIdle := by
  intro ds r hrun hfair n
  by_contra hnever
  push Not at hnever
  have hbusy : ∀ m, n ≤ m → (r m).tpTxBusy = true := fun m hm => by simpa using hnever m hm
  obtain ⟨m, hm, ha⟩ := hfair.1 n hbusy
  have hidle : (r (m + 1)).tpTxBusy = false := by
    rw [eq_tpMove_of_stepWith ha (hrun m), tpMove_of_txBusy (s := drawn (ds m) (r m)) (hbusy m hm)]
    rfl
  simp [hbusy (m + 1) (by omega)] at hidle

/-! ### SEQ -/

/-- The phases from here to the end of a transaction, IDLE not counted. -/
def phasesLeft : Phase → Nat
  | .idle => 0
  | .start => 5
  | .wtx1 => 4
  | .p2 => 3
  | .wtx2 => 2
  | .final => 1

theorem phasesLeft_eq_zero_iff {p : Phase} : phasesLeft p = 0 ↔ p = .idle := by
  cases p <;> simp [phasesLeft]

/-- A submission goes on to its successor, or ends the transaction. -/
theorem phasesLeft_afterAnswer (k : SubmitKind) (l : List Byte) (p : Phase) (a : Answer) (s : State) :
    phasesLeft (afterAnswer k l p a s).ph ≤ phasesLeft p := by
  obtain h | h := afterAnswer_ph k l p a s <;> simp [h, phasesLeft]

/-- SEQ's turn goes on where it has nothing to wait for. -/
theorem seqMove_progresses (hs : s.ph ≠ .idle) (hready : waiting s.ph = true → waitOver s = true) :
    phasesLeft s.seqMove.ph < phasesLeft s.ph := by
  cases hph : s.ph <;> simp only [hph, waiting, waitOver, Bool.not_eq_true', Bool.and_eq_true, true_implies] at hready
  case idle => exact absurd hph hs
  case start =>
    rw [seqMove_start hph]
    refine (phasesLeft_afterAnswer ..).trans_lt ?_
    split <;> simp [phasesLeft]
  case wtx1 => simp [seqMove_wtx1 hph hready, phasesLeft]
  case p2 =>
    by_cases hk : s.tKind = .read
    · rw [seqMove_p2_read hph hk]
      exact (phasesLeft_afterAnswer ..).trans_lt (by simp [phasesLeft])
    · rw [seqMove_p2_write hph hk]
      exact (phasesLeft_afterAnswer ..).trans_lt (by simp [phasesLeft])
  case wtx2 => simp [seqMove_wtx2 hph hready, phasesLeft]
  case final =>
    have hend : s.release.ph = .idle := by
      unfold State.release
      split <;> rfl
    simp [seqMove_final hph hready.1 hready.2, hend, phasesLeft]

/-- A wait at a false condition stays where it is, TP too, or ends the transaction. -/
theorem heldOrPolled_cases (s : State) :
    (heldOrPolled s).ph = .idle ∨ ((heldOrPolled s).ph = s.ph ∧ (heldOrPolled s).tpBusy = s.tpBusy ∧
      (heldOrPolled s).tpTxBusy = s.tpTxBusy) := by
  unfold heldOrPolled
  split_ifs
  · exact .inr ⟨rfl, rfl, rfl⟩
  · exact .inr ⟨rfl, rfl, rfl⟩
  · exact .inl rfl

/-- The block stands where it stood, and TP too. -/
def SamePlace (s u : State) : Prop := u.ph = s.ph ∧ u.tpBusy = s.tpBusy ∧ u.tpTxBusy = s.tpTxBusy

/-- SEQ's turn goes on, or leaves the phase and TP as they were. -/
theorem seqMove_progresses_or_same (s : State) : phasesLeft s.seqMove.ph < phasesLeft s.ph ∨ SamePlace s s.seqMove := by
  by_cases hs : s.ph = .idle
  · rw [seqMove_idle hs]
    exact .inr ⟨rfl, rfl, rfl⟩
  · by_cases hready : waiting s.ph = true → waitOver s = true
    · exact .inl (seqMove_progresses hs hready)
    · push Not at hready
      rw [seqMove_of_waiting hready.1 (by simpa using hready.2)]
      refine (heldOrPolled_cases s).imp_left fun hidle => ?_
      rw [hidle]
      exact Nat.pos_of_ne_zero (mt phasesLeft_eq_zero_iff.1 hs)

/-- After a turn of SEQ the block is past START. -/
theorem phasesLeft_seqMove_le (s : State) : phasesLeft s.seqMove.ph ≤ 4 := by
  by_cases hs : s.ph = .start
  · have hprogress := seqMove_progresses (s := s) (by simp [hs]) (by simp [hs, waiting])
    rw [hs] at hprogress
    exact Nat.le_of_lt_succ hprogress
  · have hle : phasesLeft s.seqMove.ph ≤ phasesLeft s.ph := by
      obtain hless | ⟨hph, -⟩ := seqMove_progresses_or_same s
      · exact hless.le
      · rw [hph]
    exact hle.trans (by cases h : s.ph <;> simp_all [phasesLeft])

/-- With TP idle and its notification connected every wait is over: the completion has been delivered. -/
theorem waitOver_of_transportIdle (hinv : Inv s) (hn : s.notify = true) (hidle : transportLeft s = 0)
    (hw : waiting s.ph = true) : waitOver s = true := by
  obtain ⟨htx, hbusy⟩ : s.tpTxBusy = false ∧ s.tpBusy = false := by simpa [transportLeft] using hidle
  have hdone : s.done = true := by simpa [hbusy] using hinv.completion_due hn hw
  cases hs : s.ph <;> simp_all [waiting, waitOver]

/-! ### Five rounds -/

/-- The invariant says nothing of the free values. -/
theorem inv_drawn (d : Draw) (hinv : Inv s) : Inv (drawn d s) := { hinv with }

/-- The invariant, with the notification connected. -/
def InvConnected (s : State) : Prop := Inv s ∧ s.notify = true

theorem stepWith_keeps_invConnected {d : Draw} (h : InvConnected s) (hstep : stepWith d s = .next t) :
    InvConnected t :=
  ⟨step_keeps_inv (inv_drawn d h.1) hstep, (step_notify (s := drawn d s) hstep).trans h.2⟩

/-- A round of SEQ and twice TP takes SEQ's turn and leaves TP idle. -/
theorem runWith_round {d₁ d₂ d₃ : Draw} {ds : List Draw} (h : InvConnected s) (h₁ : d₁.agent = .seq)
    (h₂ : d₂.agent = .tp) (h₃ : d₃.agent = .tp) (hrun : runWith (d₁ :: d₂ :: d₃ :: ds) s = some t) :
    ∃ u, runWith ds u = some t ∧ InvConnected u ∧ transportLeft u = 0 ∧
      u.ph = (drawn d₁ s).seqMove.ph := by
  simp only [runWith_cons_iff] at hrun
  obtain ⟨v, hv, w, hw, u, hu, hrun⟩ := hrun
  have hinv := stepWith_keeps_invConnected (stepWith_keeps_invConnected (stepWith_keeps_invConnected h hv) hw) hu
  obtain rfl := eq_seqMove_of_stepWith h₁ hv
  obtain rfl := eq_tpMove_of_stepWith h₂ hw
  obtain rfl := eq_tpMove_of_stepWith h₃ hu
  refine ⟨_, hrun, hinv, ?_, by simp⟩
  have hle := transportLeft_le (drawn d₁ s).seqMove
  simp only [transportLeft_redraw, transportLeft_drawn, transportLeft_tpMove]
  omega

/-- From a state with TP idle, as many rounds as there are phases left end the transaction. -/
theorem runWith_rounds (n : Nat) {ds : List Draw} (h : InvConnected s) (hidle : transportLeft s = 0)
    (hleft : phasesLeft s.ph ≤ n) (hds : ds.map (·.agent) = fairRounds n) (hrun : runWith ds s = some t) :
    Inv t ∧ t.ph = .idle := by
  induction n generalizing s ds with
  | zero =>
    obtain rfl : ds = [] := by simpa [fairRounds] using hds
    obtain rfl : s = t := by simpa using hrun
    exact ⟨h.1, phasesLeft_eq_zero_iff.1 (by omega)⟩
  | succ n ih =>
    simp only [fairRounds, List.map_eq_cons_iff] at hds
    obtain ⟨d₁, _, rfl, h₁, d₂, _, rfl, h₂, d₃, ds, rfl, h₃, hds⟩ := hds
    obtain ⟨u, hrun, hu, hidle', hph⟩ := runWith_round h h₁ h₂ h₃ hrun
    refine ih hu hidle' ?_ hds hrun
    by_cases hs : s.ph = .idle
    · rw [hph, seqMove_idle (s := drawn d₁ s) hs]
      simp [hs, phasesLeft]
    · have hprogress := seqMove_progresses (s := drawn d₁ s) hs
        (waitOver_of_transportIdle (inv_drawn d₁ h.1) h.2 hidle)
      rw [hph]
      exact Nat.le_of_lt_succ (hprogress.trans_le hleft)

/-- Settles O34: after one round TP is idle and the block past START; the four phases then left are the four rounds of
`runWith_rounds`. -/
theorem everyTransactionEnds : Obligations.EveryTransactionEnds := by
  intro s ds hinv hn hds
  obtain ⟨t, ht⟩ := runWith_some ds s
  rw [fairRounds] at hds
  simp only [List.map_eq_cons_iff] at hds
  obtain ⟨d₁, _, rfl, h₁, d₂, _, rfl, h₂, d₃, ds, rfl, h₃, hds⟩ := hds
  obtain ⟨u, hrun, hu, hidle, hph⟩ := runWith_round ⟨hinv, hn⟩ h₁ h₂ h₃ ht
  have hleft : phasesLeft u.ph ≤ 4 := by
    rw [hph]
    exact phasesLeft_seqMove_le _
  obtain ⟨hinv', hidle'⟩ := runWith_rounds 4 hu hidle hleft hds hrun
  exact ⟨t, ht, hidle', cs_released_of_idle hinv' hidle'⟩

/-! ### Fair runs -/

/-- What is left of a transaction: its phases, and in each of them what TP owes. -/
def workLeft (s : State) : Nat := 3 * phasesLeft s.ph + transportLeft s

@[simp] theorem workLeft_redraw (s : State) : workLeft s.redraw = workLeft s := rfl

@[simp] theorem workLeft_drawn (d : Draw) (s : State) : workLeft (drawn d s) = workLeft s := rfl

theorem workLeft_of_samePlace (h : SamePlace s u) : workLeft u = workLeft s := by
  obtain ⟨hph, hbusy, htx⟩ := h
  simp [workLeft, transportLeft, hph, hbusy, htx]

/-- A phase less outweighs whatever TP owes then. -/
theorem workLeft_lt_of_phasesLeft (h : phasesLeft u.ph < phasesLeft s.ph) : workLeft u < workLeft s := by
  have hle := transportLeft_le u
  unfold workLeft
  omega

theorem workLeft_tpMove (h : transportLeft s ≠ 0) : workLeft s.tpMove < workLeft s := by
  simp only [workLeft, tpMove_ph, transportLeft_tpMove]
  omega

/-- In flight every effect of a step leaves less work, or the block and TP where they were, or ends the transaction. -/
theorem stepEffect_in_flight (hs : s.ph ≠ .idle) (h : StepEffect s u) :
    workLeft u < workLeft s ∨ SamePlace s u ∨ u.ph = .idle := by
  cases h with
  | waits _ => exact .inr (.inl ⟨rfl, rfl, rfl⟩)
  | issues r rest u _ hidle _ _ _ => exact absurd hidle hs
  | sequences _ =>
    obtain hless | hsame := seqMove_progresses_or_same s
    · exact .inl (workLeft_lt_of_phasesLeft hless)
    · exact .inr (.inl hsame)
  | transports _ =>
    obtain ⟨htx, -⟩ | ⟨-, hbusy, -⟩ | ⟨-, -, h⟩ := tpMove_cases s
    · exact .inl (workLeft_tpMove (by simp [transportLeft, htx]))
    · exact .inl (workLeft_tpMove (by simp [transportLeft, hbusy]))
    · rw [h]
      exact .inr (.inl ⟨rfl, rfl, rfl⟩)
  | resets _ => exact .inr (.inr rfl)

/-- With TP idle SEQ has a step wherever a transaction is in flight, and it leaves less work. -/
theorem seqEnabled_of_transportIdle (hinv : InvConnected s) (hs : s.ph ≠ .idle) (hidle : transportLeft s = 0) :
    seqEnabled s = true := by
  have hover := waitOver_of_transportIdle hinv.1 hinv.2 hidle
  cases hph : s.ph <;> simp_all [seqEnabled, waiting]

theorem workLeft_seqMove (hinv : InvConnected s) (hs : s.ph ≠ .idle) (hidle : transportLeft s = 0) :
    workLeft s.seqMove < workLeft s :=
  workLeft_lt_of_phasesLeft (seqMove_progresses hs (waitOver_of_transportIdle hinv.1 hinv.2 hidle))

section Fair

variable {ds : Nat → Draw} {r : Nat → State}

/-- A run that stays in flight without leaving less work stays where it is. -/
theorem samePlace_of_stuck (hrun : IsRun ds r) {n : Nat} (hflight : ∀ m, n ≤ m → (r m).ph ≠ .idle)
    (hstuck : ∀ m, n ≤ m → ¬ workLeft (r m) < workLeft (r n)) {m : Nat} (hm : n ≤ m) : SamePlace (r n) (r m) := by
  induction m, hm using Nat.le_induction with
  | base => exact ⟨rfl, rfl, rfl⟩
  | succ m hm ih =>
    obtain ⟨u, hu, heffect⟩ := stepWith_effect _ _ (hrun m)
    have hwork := workLeft_of_samePlace ih
    have hless := hstuck (m + 1) (by omega)
    have hflight' := hflight (m + 1) (by omega)
    rw [hu] at hless hflight' ⊢
    obtain hless' | ⟨hph, hbusy, htx⟩ | hidle := stepEffect_in_flight (s := drawn (ds m) (r m)) (hflight m hm) heffect
    · rw [workLeft_drawn, hwork] at hless'
      exact absurd hless' hless
    · obtain ⟨hph', hbusy', htx'⟩ := ih
      exact ⟨hph.trans hph', hbusy.trans hbusy', htx.trans htx'⟩
    · exact absurd hidle hflight'

/-- A fair run in flight leaves less work, sooner or later: what TP owes it does, and then SEQ goes on. -/
theorem fair_progresses (hrun : IsRun ds r) (htp : FairToTp ds r) (hseq : WeaklyFair ds r .seq seqEnabled) {n : Nat}
    (hinv : ∀ m, InvConnected (r m)) (hflight : ∀ m, n ≤ m → (r m).ph ≠ .idle) :
    ∃ m, n ≤ m ∧ workLeft (r m) < workLeft (r n) := by
  by_contra hstuck
  push Not at hstuck
  have hsame := fun m (hm : n ≤ m) => samePlace_of_stuck hrun hflight (fun m hm => not_lt.2 (hstuck m hm)) hm
  have hless : ∀ m, n ≤ m → ¬ workLeft (r (m + 1)) < workLeft (r m) := fun m hm => by
    rw [workLeft_of_samePlace (hsame m hm)]
    exact not_lt.2 (hstuck (m + 1) (by omega))
  have hleft : ∀ m, n ≤ m → transportLeft (r m) = transportLeft (r n) := fun m hm => by
    obtain ⟨-, hbusy, htx⟩ := hsame m hm
    simp [transportLeft, hbusy, htx]
  have htpTurn : transportLeft (r n) ≠ 0 → ∀ m, n ≤ m → (ds m).agent ≠ .tp := fun howed m hm ha => by
    refine hless m hm ?_
    rw [eq_tpMove_of_stepWith ha (hrun m)]
    exact workLeft_tpMove (s := drawn (ds m) (r m)) (by simpa [hleft m hm] using howed)
  by_cases howed : transportLeft (r n) = 0
  · obtain ⟨m, hm, ha⟩ := hseq n fun m hm =>
      seqEnabled_of_transportIdle (hinv m) (hflight m hm) ((hleft m hm).trans howed)
    refine hless m hm ?_
    rw [eq_seqMove_of_stepWith ha (hrun m)]
    exact workLeft_seqMove (s := drawn (ds m) (r m)) ⟨inv_drawn _ (hinv m).1, (hinv m).2⟩ (hflight m hm)
      ((hleft m hm).trans howed)
  · cases htx : (r n).tpTxBusy with
    | true =>
      obtain ⟨m, hm, ha⟩ := htp.1 n fun m hm => (hsame m hm).2.2.trans htx
      exact htpTurn howed m hm ha
    | false =>
      have hbusy : (r n).tpBusy = true := by simpa [transportLeft, htx] using howed
      obtain ⟨m, hm, ha⟩ := htp.2 n fun m hm => by
        obtain ⟨-, hbusy', htx'⟩ := hsame m hm
        simp [completionEnabled, hbusy', htx', hbusy, htx]
      exact htpTurn howed m hm ha

/-- A fair run comes to IDLE from wherever it is, by induction on the work left. -/
theorem fair_comes_to_idle (hrun : IsRun ds r) (htp : FairToTp ds r) (hseq : WeaklyFair ds r .seq seqEnabled)
    (hinv : ∀ m, InvConnected (r m)) (n : Nat) : ∃ m, n ≤ m ∧ (r m).ph = .idle := by
  induction hw : workLeft (r n) using Nat.strong_induction_on generalizing n with
  | _ w ih =>
    by_contra hnever
    push Not at hnever
    obtain ⟨m, hm, hless⟩ := fair_progresses hrun htp hseq hinv hnever
    obtain ⟨k, hk, hidle⟩ := ih _ (hw ▸ hless) m rfl
    exact hnever k (hm.trans hk) hidle

end Fair

/-- Settles O58: the invariant holds all along the run, which comes to IDLE by `fair_comes_to_idle`, where the invariant
has `CS = 0`. -/
theorem fairTransactionsEnd : Obligations.FairTransactionsEnd := by
  intro ds r hrun htp hseq hinv hn n
  have hkept : ∀ m, InvConnected (r m) :=
    isRun_keeps hrun (fun _ _ _ h hstep => stepWith_keeps_invConnected h hstep) ⟨hinv, hn⟩
  obtain ⟨m, hm, hidle⟩ := fair_comes_to_idle hrun htp hseq hkept n
  exact ⟨m, hm, hidle, cs_released_of_idle (hkept m).1 hidle⟩

end Sys2Proof.Machine
end

section
/-! SUPPORT. `rne` (00_scope.md R9): a pattern's magnitude in units of the least subnormal, rounding to a nearest whole
number of units in the last place, and the threshold of overflow. -/

namespace Sys2Proof.Machine

/-! ### Rounding a fraction -/

/-- A fraction is its whole part and the rest over the denominator. -/
theorem natCast_div_eq_add_mod (n : Nat) {d : Nat} (hd : 0 < d) :
    (n : ℚ) / d = (n / d : ℕ) + ((n % d : ℕ) : ℚ) / d := by
  have hne : (d : ℚ) ≠ 0 := by exact_mod_cast hd.ne'
  rw [eq_comm, add_div' _ _ _ hne, mul_comm]
  exact_mod_cast congrArg (fun m : ℕ => (m : ℚ) / d) (Nat.div_add_mod n d)

/-- Half-even rounding is off by a half at most, and by a half at an even number only. -/
theorem roundHalfEven_close (n : Nat) {d : Nat} (hd : 0 < d) :
    |(n : ℚ) / d - roundHalfEven n d| ≤ 1 / 2 ∧
      (|(n : ℚ) / d - roundHalfEven n d| = 1 / 2 → roundHalfEven n d % 2 = 0) := by
  have hd' : (0 : ℚ) < d := by exact_mod_cast hd
  have hmod : n % d < d := Nat.mod_lt n hd
  rw [natCast_div_eq_add_mod n hd]
  unfold roundHalfEven
  generalize n / d = q, n % d = r at *
  have hf : 0 ≤ (r : ℚ) / d := by positivity
  split_ifs with hlow hhigh
  · have hf' : (r : ℚ) / d < 1 / 2 := by
      rw [div_lt_iff₀ hd']
      have : (2 * r : ℚ) < d := by exact_mod_cast hlow
      linarith
    rw [add_sub_cancel_left, abs_of_nonneg hf]
    exact ⟨hf'.le, fun h => absurd h hf'.ne⟩
  · have hf' : 1 / 2 < (r : ℚ) / d := by
      rw [lt_div_iff₀ hd']
      have : (d : ℚ) < 2 * r := by exact_mod_cast hhigh
      linarith
    have hf'' : (r : ℚ) / d < 1 := (div_lt_one hd').2 (by exact_mod_cast hmod)
    have habs : |(q : ℚ) + r / d - (q + 1 : ℕ)| = 1 - r / d := by
      rw [abs_of_nonpos (by push_cast; linarith)]
      push_cast
      ring
    rw [habs]
    exact ⟨by linarith, fun h => absurd h (by linarith)⟩
  · have hf' : (r : ℚ) / d = 1 / 2 := by
      rw [div_eq_iff hd'.ne']
      have : (2 * r : ℚ) = d := by exact_mod_cast (by omega : 2 * r = d)
      linarith
    refine ⟨le_of_eq ?_, fun _ => by omega⟩
    obtain hq | hq := Nat.mod_two_eq_zero_or_one q <;> rw [hf', hq] <;> push_cast <;> norm_num [abs_of_nonpos]

/-- Half-even rounding gives a nearest number and, of two equally near, the even one. -/
theorem roundHalfEven_nearest (n : Nat) {d : Nat} (hd : 0 < d) (k : Nat) :
    |(n : ℚ) / d - roundHalfEven n d| ≤ |(n : ℚ) / d - k| ∧
      (|(n : ℚ) / d - roundHalfEven n d| = |(n : ℚ) / d - k| → k ≠ roundHalfEven n d → roundHalfEven n d % 2 = 0) := by
  obtain ⟨hclose, heven⟩ := roundHalfEven_close n hd
  generalize roundHalfEven n d = m at *
  by_cases hk : k = m
  · exact ⟨by rw [hk], fun _ hne => absurd hk hne⟩
  · have hapart : (1 : ℚ) ≤ |(k : ℚ) - m| := by
      have hint : (1 : ℤ) ≤ |(k : ℤ) - m| := Int.one_le_abs (by omega)
      exact_mod_cast hint
    have htriangle : |(k : ℚ) - m| ≤ |(n : ℚ) / d - k| + |(n : ℚ) / d - m| := by
      have hsub := abs_sub_le (k : ℚ) (n / d) m
      rwa [abs_sub_comm (k : ℚ) (n / d)] at hsub
    exact ⟨by linarith, fun h _ => heven (by linarith)⟩

/-- A whole number below the fraction is below its rounding. -/
theorem le_roundHalfEven {n d a : Nat} (hd : 0 < d) (h : a * d ≤ n) : a ≤ roundHalfEven n d := by
  have hle : a ≤ n / d := (Nat.le_div_iff_mul_le hd).2 h
  unfold roundHalfEven
  split_ifs <;> omega

/-- A whole number above the fraction is above its rounding. -/
theorem roundHalfEven_le {n d b : Nat} (hd : 0 < d) (h : n ≤ b * d) : roundHalfEven n d ≤ b := by
  have hmod := Nat.div_add_mod n d
  have hle : n / d ≤ b := Nat.div_le_of_le_mul (by rwa [mul_comm])
  have hlt : n % d ≠ 0 → n / d < b := fun hne => Nat.lt_of_le_of_ne hle fun heq => by
    rw [heq, mul_comm] at hmod
    omega
  have hmod' := Nat.mod_lt n hd
  unfold roundHalfEven
  split_ifs <;> by_cases hne : n % d = 0 <;> simp only [hne, ne_eq, not_true_eq_false, not_false_eq_true,
    true_implies] at * <;> omega

/-- Rounding reaches an even number from half a unit below it on. -/
theorem even_le_roundHalfEven_iff {n d a : Nat} (hd : 0 < d) (ha : a % 2 = 0) (ha' : 0 < a) :
    a ≤ roundHalfEven n d ↔ (2 * a - 1) * d ≤ 2 * n := by
  have hmod := Nat.div_add_mod n d
  have hmod' := Nat.mod_lt n hd
  unfold roundHalfEven
  generalize n / d = q, n % d = r at *
  subst hmod
  obtain hle | rfl | hge : a ≤ q ∨ a = q + 1 ∨ q + 2 ≤ a := by omega
  · have hleft : a ≤ if 2 * r < d then q else if d < 2 * r then q + 1 else q + q % 2 := by split_ifs <;> omega
    have hright : (2 * a - 1) * d ≤ 2 * (d * q + r) := by
      calc (2 * a - 1) * d ≤ 2 * q * d := Nat.mul_le_mul_right d (by omega)
        _ ≤ 2 * (d * q + r) := by rw [mul_assoc, mul_comm q]; omega
    exact iff_of_true hleft hright
  · have hunits : (2 * (q + 1) - 1) * d = 2 * (d * q) + d := by
      rw [show 2 * (q + 1) - 1 = 2 * q + 1 by omega]
      ring
    rw [hunits]
    split_ifs <;> omega
  · have hleft : ¬ a ≤ if 2 * r < d then q else if d < 2 * r then q + 1 else q + q % 2 := by split_ifs <;> omega
    have hright : ¬ (2 * a - 1) * d ≤ 2 * (d * q + r) := by
      have hunits : (2 * q + 3) * d ≤ (2 * a - 1) * d := Nat.mul_le_mul_right d (by omega)
      have hsplit : (2 * q + 3) * d = 2 * (d * q) + 3 * d := by ring
      omega
    exact iff_of_false hleft hright

/-! ### The fields of a pattern -/

theorem b64Exp_eq (x : Word64) : b64Exp x = x.toNat / 2 ^ 52 % 2 ^ 11 := by
  rw [b64Exp, BitVec.extractLsb'_toNat, Nat.shiftRight_eq_div_pow]

theorem b64Frac_eq (x : Word64) : b64Frac x = x.toNat % 2 ^ 52 := by
  rw [b64Frac, BitVec.extractLsb'_toNat, Nat.shiftRight_zero]

theorem b64Sign_eq (x : Word64) : b64Sign x = decide (2 ^ 63 ≤ x.toNat) := by
  rw [b64Sign, ← BitVec.msb_eq_decide (x := x), BitVec.msb_eq_getLsbD_last]

/-- The magnitude of a pattern in units of the least subnormal. -/
def b64Units (x : Word64) : Nat := b64Sig x * 2 ^ (b64Scale x - 1)

theorem abs_b64Value_eq_units (x : Word64) : |b64Value x| = (b64Units x : ℚ) / 2 ^ 1074 := by
  have hscale : 1 ≤ b64Scale x := le_max_right _ _
  have hpow : (2 : ℚ) ^ ((b64Scale x : ℤ) - 1075) = 2 ^ (b64Scale x - 1) / 2 ^ 1074 := by
    rw [← zpow_natCast, ← zpow_natCast, ← zpow_sub₀ two_ne_zero]
    congr 1
    omega
  rw [abs_b64Value, magnitude_eq, hpow, b64Units, Nat.cast_mul, Nat.cast_pow, Nat.cast_ofNat, mul_div_assoc]

/-- A significand is less than `2 ^ 53`. -/
theorem b64Sig_lt (x : Word64) : b64Sig x < 2 ^ 53 := by
  have hfrac : b64Frac x < 2 ^ 52 := (x.extractLsb' 0 52).isLt
  unfold b64Sig
  split <;> omega

/-- Magnitude bits that are an exponent and a significand, a carry of it into the exponent included, stand for the
significand scaled. -/
theorem b64Units_of_magnitude {x : Word64} {e m : Nat} (h : b64Exp x * 2 ^ 52 + b64Frac x = e * 2 ^ 52 + m)
    (hm : m ≤ 2 ^ 53) (he : 0 < e → 2 ^ 52 ≤ m) : b64Units x = m * 2 ^ e := by
  have hfrac : b64Frac x < 2 ^ 52 := (x.extractLsb' 0 52).isLt
  unfold b64Units b64Sig b64Scale
  obtain hsub | hcarry | hnormal : m < 2 ^ 52 ∨ m = 2 ^ 53 ∨ (2 ^ 52 ≤ m ∧ m < 2 ^ 53) := by omega
  · obtain rfl : e = 0 := by omega
    have hexp : b64Exp x = 0 := by omega
    have hm' : b64Frac x = m := by omega
    simp [hexp, hm']
  · have hexp : b64Exp x = e + 2 := by omega
    have hm' : b64Frac x = 0 := by omega
    rw [hexp, hm', if_neg (by omega), max_eq_left (by omega), hcarry, Nat.add_zero, ← pow_add, ← pow_add]
    congr 1
    omega
  · have hexp : b64Exp x = e + 1 := by omega
    have hm' : 2 ^ 52 + b64Frac x = m := by omega
    rw [hexp, hm', if_neg (by omega), max_eq_left (by omega), Nat.add_sub_cancel]

/-! ### The pattern of a rounded number -/

/-- The exponent of one unit in the last place of a number of so many units of the least subnormal. -/
def ulpExponent (units : Nat) : Nat := Nat.log2 units - 52

theorem lt_of_ulpExponent (units : Nat) : units < 2 ^ (ulpExponent units + 53) :=
  Nat.lt_log2_self.trans_le (Nat.pow_le_pow_right (by decide) (by unfold ulpExponent; omega))

theorem le_of_ulpExponent {units : Nat} (h : 0 < ulpExponent units) : 2 ^ (ulpExponent units + 52) ≤ units := by
  have hne : units ≠ 0 := by
    rintro rfl
    simp [ulpExponent] at h
  refine le_trans (Nat.pow_le_pow_right (by decide) ?_) (Nat.log2_self_le hne)
  unfold ulpExponent at *
  omega

/-- The number to round, in whole units of the least subnormal. -/
def wholeUnits (num den : Nat) : Nat := num * 2 ^ 1074 / den

/-- The exponent of the last place of the number to round. -/
def rneExponent (num den : Nat) : Nat := ulpExponent (wholeUnits num den)

/-- The significand of the rounded number, `2 ^ 53` where it carries. -/
def rneSignificand (num den : Nat) : Nat :=
  roundHalfEven (num * 2 ^ 1074) (den * 2 ^ rneExponent num den)

theorem rneMagnitude_eq (num den : Nat) :
    rneMagnitude num den = min (rneExponent num den * 2 ^ 52 + rneSignificand num den) infMagnitude := rfl

theorem rne_toNat (neg : Bool) (num den : Nat) :
    (rne neg num den).toNat = rneMagnitude num den + if neg then 2 ^ 63 else 0 := by
  have hle : rneMagnitude num den ≤ infMagnitude := min_le_right _ _
  rw [rne, BitVec.toNat_ofNat, Nat.mod_eq_of_lt]
  unfold infMagnitude at hle
  split <;> omega

/-- The sign bit and the bits below it. -/
theorem rne_fields (neg : Bool) (num den : Nat) :
    b64Sign (rne neg num den) = neg ∧
      b64Exp (rne neg num den) * 2 ^ 52 + b64Frac (rne neg num den) = rneMagnitude num den := by
  have hle : rneMagnitude num den ≤ infMagnitude := min_le_right _ _
  rw [b64Sign_eq, b64Exp_eq, b64Frac_eq, rne_toNat]
  unfold infMagnitude at hle
  cases neg <;> simp only [Bool.false_eq_true, if_false, if_true, decide_eq_true_eq, decide_eq_false_iff_not] <;>
    omega

theorem b64Finite_iff (x : Word64) : b64Finite x = true ↔ b64Exp x * 2 ^ 52 + b64Frac x < infMagnitude := by
  have hfrac : b64Frac x < 2 ^ 52 := (x.extractLsb' 0 52).isLt
  have hexp : b64Exp x < 2 ^ 11 := (x.extractLsb' 52 11).isLt
  unfold b64Finite infMagnitude
  rw [decide_eq_true_eq]
  omega

/-- The result is finite unless exponent and significand reach those of an infinity. -/
theorem b64Finite_rne_iff (neg : Bool) (num den : Nat) :
    b64Finite (rne neg num den) = true ↔ rneExponent num den * 2 ^ 52 + rneSignificand num den < infMagnitude := by
  rw [b64Finite_iff, (rne_fields neg num den).2, rneMagnitude_eq, min_lt_iff, or_iff_left (lt_irrefl _)]

/-- The last bit of a finite result is that of its significand. -/
theorem lastBit_rne {neg : Bool} {num den : Nat} (hfinite : b64Finite (rne neg num den) = true)
    (heven : rneSignificand num den % 2 = 0) : (rne neg num den).getLsbD 0 = false := by
  have hlt := (b64Finite_rne_iff neg num den).1 hfinite
  have hmod : (rne neg num den).toNat % 2 = 0 := by
    rw [rne_toNat, rneMagnitude_eq, min_eq_left hlt.le]
    split <;> omega
  rw [← BitVec.testBit_toNat, Nat.testBit_zero, hmod]
  rfl

section Pattern

variable {num den : Nat} (hden : 0 < den)

include hden

theorem rneSignificand_le : rneSignificand num den ≤ 2 ^ 53 := by
  have hlt : num * 2 ^ 1074 < 2 ^ (rneExponent num den + 53) * den :=
    (Nat.div_lt_iff_lt_mul hden).1 (lt_of_ulpExponent _)
  refine roundHalfEven_le (by positivity) (hlt.le.trans_eq ?_)
  rw [pow_add]
  ring

/-- A number past the subnormals has a whole significand. -/
theorem units_of_exponent_pos (he : 0 < rneExponent num den) :
    2 ^ 52 * (den * 2 ^ rneExponent num den) ≤ num * 2 ^ 1074 := by
  have hle : 2 ^ (rneExponent num den + 52) * den ≤ num * 2 ^ 1074 :=
    (Nat.le_div_iff_mul_le hden).1 (le_of_ulpExponent he)
  refine le_trans (le_of_eq ?_) hle
  rw [pow_add]
  ring

theorem le_rneSignificand (he : 0 < rneExponent num den) : 2 ^ 52 ≤ rneSignificand num den :=
  le_roundHalfEven (by positivity) (units_of_exponent_pos hden he)

/-- A finite result is its significand in units of the last place. -/
theorem b64Units_rne {neg : Bool} (hfinite : b64Finite (rne neg num den) = true) :
    b64Units (rne neg num den) = rneSignificand num den * 2 ^ rneExponent num den := by
  have hlt := (b64Finite_rne_iff neg num den).1 hfinite
  refine b64Units_of_magnitude ?_ (rneSignificand_le hden) (le_rneSignificand hden)
  rw [(rne_fields neg num den).2, rneMagnitude_eq, min_eq_left hlt.le]

end Pattern

/-! ### The nearest pattern -/

/-- A pattern at or above the least number with a last place is a multiple of that place. -/
theorem ulp_dvd_b64Units {y : Word64} {e : Nat} (h : e = 0 ∨ 2 ^ (e + 52) ≤ b64Units y) : 2 ^ e ∣ b64Units y := by
  obtain rfl | h := h
  · exact one_dvd _
  · refine Dvd.dvd.mul_left (pow_dvd_pow 2 ?_) _
    by_contra hlt
    have hunits : b64Units y < 2 ^ 53 * 2 ^ (b64Scale y - 1) :=
      Nat.mul_lt_mul_of_pos_right (b64Sig_lt y) (by positivity)
    have hpow : 2 ^ 53 * 2 ^ (b64Scale y - 1) ≤ 2 ^ (e + 52) := by
      rw [← pow_add]
      exact Nat.pow_le_pow_right (by decide) (by omega)
    omega

/-- The distance from a number to so many units of the least subnormal, in those units. -/
def unitsDistance (num den units : Nat) : ℚ := |((num * 2 ^ 1074 : ℕ) : ℚ) / den - units|

/-- The rounded number in units of the least subnormal. -/
def rneUnits (num den : Nat) : Nat := rneSignificand num den * 2 ^ rneExponent num den

section Nearest

variable {num den : Nat}

/-- The distance to a whole number of last places. -/
theorem unitsDistance_mul (m : Nat) :
    unitsDistance num den (m * 2 ^ rneExponent num den) =
      |((num * 2 ^ 1074 : ℕ) : ℚ) / (den * 2 ^ rneExponent num den : ℕ) - m| * 2 ^ rneExponent num den := by
  have hpow : (0 : ℚ) < 2 ^ rneExponent num den := by positivity
  rw [unitsDistance, ← abs_of_pos hpow, ← abs_mul, Nat.cast_mul den, Nat.cast_mul m, Nat.cast_pow, Nat.cast_ofNat,
    sub_mul, ← div_div, div_mul_cancel₀ _ hpow.ne']

/-- Distances in units are distances of magnitudes. -/
theorem abs_sub_abs_b64Value (y : Word64) :
    |(num : ℚ) / den - (|b64Value y|)| = unitsDistance num den (b64Units y) / 2 ^ 1074 := by
  have hpow : (0 : ℚ) < 2 ^ 1074 := by positivity
  rw [abs_b64Value_eq_units, unitsDistance, ← abs_of_pos hpow, ← abs_div, abs_of_pos hpow, sub_div, Nat.cast_mul,
    Nat.cast_pow, Nat.cast_ofNat, mul_div_right_comm, mul_div_cancel_right₀ _ hpow.ne']

variable (hden : 0 < den)

include hden

/-- Of the multiples of the last place the rounded number is a nearest and, of two as near, the even one. -/
theorem rneUnits_nearest_multiple (m : Nat) :
    unitsDistance num den (rneUnits num den) ≤ unitsDistance num den (m * 2 ^ rneExponent num den) ∧
      (unitsDistance num den (rneUnits num den) = unitsDistance num den (m * 2 ^ rneExponent num den) →
        m * 2 ^ rneExponent num den ≠ rneUnits num den → rneSignificand num den % 2 = 0) := by
  have hpow : (0 : ℚ) < 2 ^ rneExponent num den := by positivity
  obtain ⟨hle, htie⟩ := roundHalfEven_nearest (num * 2 ^ 1074) (d := den * 2 ^ rneExponent num den) (by positivity) m
  rw [rneUnits, unitsDistance_mul, unitsDistance_mul]
  exact ⟨mul_le_mul_of_nonneg_right hle hpow.le, fun heq hne =>
    htie (mul_right_cancel₀ hpow.ne' heq) fun h => hne (by rw [h, rneSignificand])⟩

/-- Less than the least significand of the number's exponent is farther than the rounded number. -/
theorem rneUnits_nearer_than_below {units : Nat} (he : 0 < rneExponent num den)
    (hlow : units < 2 ^ 52 * 2 ^ rneExponent num den) :
    unitsDistance num den (rneUnits num den) < unitsDistance num den units := by
  have hwhole : ((2 ^ 52 * 2 ^ rneExponent num den : ℕ) : ℚ) ≤ ((num * 2 ^ 1074 : ℕ) : ℚ) / den := by
    rw [le_div_iff₀ (by exact_mod_cast hden)]
    exact_mod_cast (show 2 ^ 52 * 2 ^ rneExponent num den * den ≤ num * 2 ^ 1074 by
      rw [mul_assoc, mul_comm _ den]
      exact units_of_exponent_pos hden he)
  have hlow' : (units : ℚ) < (2 ^ 52 * 2 ^ rneExponent num den : ℕ) := Nat.cast_lt.2 hlow
  refine (rneUnits_nearest_multiple hden (2 ^ 52)).1.trans_lt ?_
  rw [unitsDistance, unitsDistance, abs_of_nonneg (sub_nonneg.2 hwhole),
    abs_of_pos (sub_pos.2 (hlow'.trans_le hwhole))]
  exact sub_lt_sub_left hlow' _

/-- No pattern's magnitude is nearer to the number than the rounded one; another as near leaves the rounded significand
even. -/
theorem rneUnits_nearest (y : Word64) :
    unitsDistance num den (rneUnits num den) ≤ unitsDistance num den (b64Units y) ∧
      (unitsDistance num den (rneUnits num den) = unitsDistance num den (b64Units y) →
        b64Units y ≠ rneUnits num den → rneSignificand num den % 2 = 0) := by
  by_cases hy : rneExponent num den = 0 ∨ 2 ^ (rneExponent num den + 52) ≤ b64Units y
  · obtain ⟨k, hk⟩ := ulp_dvd_b64Units hy
    rw [hk, mul_comm (2 ^ _) k]
    exact rneUnits_nearest_multiple hden k
  · push Not at hy
    obtain ⟨he, hlow⟩ := hy
    rw [pow_add, mul_comm] at hlow
    have hlt := rneUnits_nearer_than_below hden (Nat.pos_of_ne_zero he) hlow
    exact ⟨hlt.le, fun heq => absurd heq hlt.ne⟩

/-- The magnitude of a finite result is nearest to the number, and even where another is as near. -/
theorem rne_nearest_magnitude {neg : Bool} (hfinite : b64Finite (rne neg num den) = true) (y : Word64) :
    |(num : ℚ) / den - (|b64Value (rne neg num den)|)| ≤ |(num : ℚ) / den - (|b64Value y|)| ∧
      (|(num : ℚ) / den - (|b64Value (rne neg num den)|)| = |(num : ℚ) / den - (|b64Value y|)| →
        |b64Value y| ≠ |b64Value (rne neg num den)| → (rne neg num den).getLsbD 0 = false) := by
  have hpow : (0 : ℚ) < 2 ^ 1074 := by positivity
  have hunits : b64Units (rne neg num den) = rneUnits num den := b64Units_rne hden hfinite
  obtain ⟨hle, htie⟩ := rneUnits_nearest hden y
  rw [abs_sub_abs_b64Value, abs_sub_abs_b64Value, hunits]
  refine ⟨div_le_div_of_nonneg_right hle hpow.le, fun heq hne => lastBit_rne hfinite (htie ?_ fun h => hne ?_)⟩
  · exact (div_left_inj' hpow.ne').1 heq
  · rw [abs_b64Value_eq_units, abs_b64Value_eq_units, hunits, h]

end Nearest

/-! ### Signs -/

/-- The factor of a sign. -/
def signFactor (neg : Bool) : ℚ := if neg then -1 else 1

theorem abs_signFactor (neg : Bool) : |signFactor neg| = 1 := by cases neg <;> simp [signFactor]

/-- A pattern is its magnitude with the factor of its sign. -/
theorem b64Value_eq_signFactor (x : Word64) : b64Value x = signFactor (b64Sign x) * |b64Value x| := by
  rw [abs_b64Value, b64Value_eq, signFactor]

/-- Numbers of one sign are as far apart as their magnitudes. -/
theorem abs_signFactor_mul_sub (neg : Bool) (a b : ℚ) : |signFactor neg * a - signFactor neg * b| = |a - b| := by
  rw [← mul_sub, abs_mul, abs_signFactor, one_mul]

theorem b64Value_rne (neg : Bool) (num den : Nat) :
    b64Value (rne neg num den) = signFactor neg * |b64Value (rne neg num den)| := by
  conv_lhs => rw [b64Value_eq_signFactor, (rne_fields neg num den).1]

/-- Any pattern is at least as far from a number as the magnitudes are. -/
theorem abs_magnitudes_sub_le (neg : Bool) {a : ℚ} (ha : 0 ≤ a) (y : Word64) :
    |a - (|b64Value y|)| ≤ |signFactor neg * a - b64Value y| := by
  have h := abs_abs_sub_abs_le (signFactor neg * a) (b64Value y)
  rwa [abs_mul, abs_signFactor, one_mul, abs_of_nonneg ha] at h

/-- Of two patterns of one magnitude the one of another sign is as far from a number as the other only if the number is
a zero. -/
theorem eq_zero_of_as_far {q x y : ℚ} (heq : |q - x| = |q - y|) (habs : |y| = |x|) (hne : y ≠ x) : q = 0 := by
  obtain rfl : y = -x := (abs_eq_abs.1 habs).resolve_left hne
  obtain h | h := abs_eq_abs.1 heq
  · exact absurd (by linarith) hne
  · linarith

/-- A result rounded from a zero is even. -/
theorem lastBit_rne_zero (neg : Bool) (den : Nat) : (rne neg 0 den).getLsbD 0 = false := by
  rw [rne_zero]
  cases neg <;> rfl

/-- A finite result is nearest among the patterns, and even where another is as near. -/
theorem rne_nearest {neg : Bool} {num den : Nat} (hden : 0 < den) (hfinite : b64Finite (rne neg num den) = true)
    (y : Word64) :
    |signFactor neg * (num / den) - b64Value (rne neg num den)| ≤ |signFactor neg * (num / den) - b64Value y| ∧
      (|signFactor neg * (num / den) - b64Value (rne neg num den)| = |signFactor neg * (num / den) - b64Value y| →
        b64Value y ≠ b64Value (rne neg num den) → (rne neg num den).getLsbD 0 = false) := by
  have hmag : (0 : ℚ) ≤ num / den := by positivity
  obtain ⟨hle, htie⟩ := rne_nearest_magnitude hden hfinite y
  have hown : |signFactor neg * (num / den : ℚ) - b64Value (rne neg num den)| =
      |(num : ℚ) / den - (|b64Value (rne neg num den)|)| := by
    rw [b64Value_rne, abs_signFactor_mul_sub, abs_mul, abs_signFactor, one_mul, abs_abs]
  have hother := abs_magnitudes_sub_le neg hmag y
  refine ⟨hown.trans_le (hle.trans hother), fun heq hne => ?_⟩
  by_cases habs : |b64Value y| = |b64Value (rne neg num den)|
  · have hzero := eq_zero_of_as_far heq habs hne
    have hnum : num = 0 := by
      have hfactor : signFactor neg ≠ 0 := abs_ne_zero.1 (by simp [abs_signFactor])
      simpa [hfactor, hden.ne'] using hzero
    subst hnum
    exact lastBit_rne_zero neg den
  · exact htie (le_antisymm hle (hother.trans_eq (heq.symm.trans hown))) habs

/-! ### Overflow -/

/-- The exponent of half a last place of the largest finite numbers, in units of the least subnormal. -/
def halfUlpExponent : Nat := 970 + 1074

/-- The threshold `2 ^ 1024 - 2 ^ 970` in units of the least subnormal. -/
def overflowUnits : Nat := (2 ^ 54 - 1) * 2 ^ halfUlpExponent

theorem overflowUnits_scaled (k m : Nat) :
    ((2 ^ 54 - 1) * 2 ^ (k + m) : ℕ) = ((2 : ℚ) ^ (54 + k) - 2 ^ k) * 2 ^ m := by
  rw [pow_add, pow_add]
  push_cast
  ring

theorem overflowUnits_eq : (overflowUnits : ℚ) = (2 ^ 1024 - 2 ^ 970) * 2 ^ 1074 := by
  rw [overflowUnits, halfUlpExponent, overflowUnits_scaled]

theorem overflow_iff_units {num den : Nat} (hden : 0 < den) :
    (2 ^ 1024 - 2 ^ 970 : ℚ) ≤ num / den ↔ overflowUnits ≤ wholeUnits num den := by
  have hpow : (0 : ℚ) < 2 ^ 1074 := by positivity
  have hden' : (0 : ℚ) < den := by exact_mod_cast hden
  rw [wholeUnits, Nat.le_div_iff_mul_le hden, ← Nat.cast_le (α := ℚ), Nat.cast_mul, Nat.cast_mul, overflowUnits_eq,
    Nat.cast_pow, Nat.cast_ofNat, mul_right_comm, mul_le_mul_iff_left₀ hpow, le_div_iff₀ hden']

/-- Half a last place of the exponent `k + 1` is a place of the exponent `k`. -/
theorem half_ulp_mul (den k : Nat) :
    (2 * 2 ^ 53 - 1) * (den * 2 ^ (k + 1)) = 2 * ((2 ^ 54 - 1) * 2 ^ k * den) := by
  rw [pow_succ 2 k]
  ring

/-- Exponent and significand reach those of an infinity exactly from the threshold on: at the last exponent the
significand carries from half a last place below `2 ^ 1024` on. -/
theorem reaches_infinity_iff {num den : Nat} (hden : 0 < den) :
    infMagnitude ≤ rneExponent num den * 2 ^ 52 + rneSignificand num den ↔ overflowUnits ≤ wholeUnits num den := by
  have hsig := rneSignificand_le (num := num) hden
  have hsig' := le_rneSignificand (num := num) hden
  have hlast : halfUlpExponent = 2044 := rfl
  unfold infMagnitude
  obtain he | he | he := lt_trichotomy (rneExponent num den) (halfUlpExponent + 1)
  · refine iff_of_false (by omega) (not_le.2 ?_)
    calc wholeUnits num den < 2 ^ (rneExponent num den + 53) := lt_of_ulpExponent _
      _ ≤ 2 ^ (53 + halfUlpExponent) := Nat.pow_le_pow_right (by decide) (by omega)
      _ = 2 ^ 53 * 2 ^ halfUlpExponent := pow_add ..
      _ ≤ overflowUnits := Nat.mul_le_mul_right _ (by decide)
  · have hcarry : 2 ^ 53 ≤ rneSignificand num den ↔ overflowUnits ≤ wholeUnits num den := by
      rw [rneSignificand, even_le_roundHalfEven_iff (by positivity) (by decide) (by decide), he, half_ulp_mul,
        wholeUnits, Nat.le_div_iff_mul_le hden, Nat.mul_le_mul_left_iff (by decide), overflowUnits]
    rw [← hcarry, he]
    omega
  · refine iff_of_true (by omega) ?_
    calc overflowUnits ≤ 2 ^ 54 * 2 ^ halfUlpExponent := Nat.mul_le_mul_right _ (by decide)
      _ = 2 ^ (54 + halfUlpExponent) := (pow_add ..).symm
      _ ≤ 2 ^ (rneExponent num den + 52) := Nat.pow_le_pow_right (by decide) (by omega)
      _ ≤ wholeUnits num den := le_of_ulpExponent (show 0 < rneExponent num den by omega)

/-- A result is not finite exactly from the threshold on. -/
theorem b64Finite_rne_eq_false_iff (neg : Bool) {num den : Nat} (hden : 0 < den) :
    b64Finite (rne neg num den) = false ↔ (2 ^ 1024 - 2 ^ 970 : ℚ) ≤ num / den := by
  rw [overflow_iff_units hden, ← reaches_infinity_iff hden, ← not_lt, ← b64Finite_rne_iff neg, Bool.not_eq_true]

/-- Settles O39: `rne_nearest` for the distances and the even result, `b64Finite_rne_eq_false_iff` for the threshold. -/
theorem rneRoundsToNearestEven : Obligations.RneRoundsToNearestEven := by
  intro neg num den hden
  exact ⟨fun hfinite y _ => rne_nearest hden hfinite y, b64Finite_rne_eq_false_iff neg hden, (rne_fields neg num den).1⟩

/-- A finite pattern is below the threshold. -/
theorem b64Units_lt_of_finite {x : Word64} (hx : b64Finite x = true) : b64Units x < overflowUnits := by
  have hexp : b64Exp x < 2 ^ 11 := (x.extractLsb' 52 11).isLt
  have hne : b64Exp x ≠ 2047 := by simpa [b64Finite] using hx
  have hscale : b64Scale x - 1 ≤ halfUlpExponent + 1 := by
    unfold b64Scale halfUlpExponent
    omega
  calc b64Units x ≤ (2 ^ 53 - 1) * 2 ^ (halfUlpExponent + 1) :=
        Nat.mul_le_mul (Nat.le_sub_one_of_lt (b64Sig_lt x)) (Nat.pow_le_pow_right (by decide) hscale)
    _ = (2 ^ 54 - 2) * 2 ^ halfUlpExponent := by rw [pow_succ 2 halfUlpExponent]; ring
    _ < overflowUnits := Nat.mul_lt_mul_of_pos_right (by decide) (Nat.two_pow_pos _)

theorem magnitude_lt_of_finite {x : Word64} (hx : b64Finite x = true) :
    (magNum x : ℚ) / magDen x < 2 ^ 1024 - 2 ^ 970 := by
  rw [← abs_b64Value, abs_b64Value_eq_units, div_lt_iff₀ (by positivity), ← overflowUnits_eq]
  exact_mod_cast b64Units_lt_of_finite hx

end Sys2Proof.Machine
end

section
/-! SUPPORT. `TOVOLT` by its rule (42_converter.md R175), the digits of `DSPLIT` (R180, corner cases), and the path of a
sample through both conversions (R186). -/

namespace Sys2Proof.Machine

variable {s t : State}

/-! ### TOVOLT -/

theorem decodeRequest_tovolt {r : Request} (h : ctlOpc r.ctl = 0x7#4) :
    decodeRequest r = .tovolt (r.data.extractLsb' 0 32) := by
  simp [decodeRequest, h]

/-- The sign of a code is that of its two's-complement reading. -/
theorem getLsbD_sign (code : Word32) : code.getLsbD 31 = decide (code.toInt < 0) := by
  rw [← BitVec.msb_eq_toInt, BitVec.msb_eq_getLsbD_last]

/-- The product that `TOVOLT` rounds first. -/
def roundedProduct (code : Word32) (fs : Word64) : Word64 :=
  rne (decide (code.toInt < 0) ^^ b64Sign fs) (code.toInt.natAbs * magNum fs) (magDen fs)

/-- With a finite full scale and a non-zero resolution the product decides. -/
theorem toVoltage_of_defined {code : Word32} {fs : Word64} {res : Word32} (hres : res ≠ 0#32)
    (hfs : b64Finite fs = true) :
    toVoltage code fs res = if b64Finite (roundedProduct code fs) = true then
      some (rne (b64Sign (roundedProduct code fs)) (magNum (roundedProduct code fs))
        (magDen (roundedProduct code fs) * res.toNat)) else none := by
  rw [toVoltage, if_neg hres, if_pos hfs, scaledProduct, getLsbD_sign, ← roundedProduct]
  split <;> rfl

/-- `TOVOLT` at IDLE. -/
theorem exec_tovolt_at_idle (code : Word32) (hs : s.ph = .idle) :
    exec (.tovolt code) s = .next (converted code s) := by
  have hres : s.cfgResolution.toNat ≠ 0 ↔ s.cfgResolution ≠ 0#32 := by simp [← BitVec.toNat_inj]
  unfold converted
  dsimp only
  split_ifs with h
  · obtain ⟨hne, hfs, hp⟩ := h
    exact exec_tovolt_of_some hs ((toVoltage_of_defined (hres.1 hne) hfs).trans (if_pos hp))
  · refine exec_tovolt_of_none hs ?_
    by_cases hdefined : s.cfgResolution ≠ 0#32 ∧ b64Finite s.cfgFullScale = true
    · obtain ⟨hne, hfs⟩ := hdefined
      exact (toVoltage_of_defined hne hfs).trans (if_neg fun hp => h ⟨hres.2 hne, hfs, hp⟩)
    · refine toVoltage_eq_none ?_
      rwa [not_and_or, not_not, Bool.not_eq_true, or_comm] at hdefined

/-- The quotient by a non-zero resolution does not overflow: it is no larger than the finite product (R175). -/
theorem b64Finite_quotient {p : Word64} {res : Nat} (hp : b64Finite p = true) (hres : res ≠ 0) :
    b64Finite (rne (b64Sign p) (magNum p) (magDen p * res)) = true := by
  have hden : 0 < magDen p := magDen_pos p
  have hres' : 0 < res := Nat.pos_of_ne_zero hres
  have hle : (magNum p : ℚ) / (magDen p * res : ℕ) ≤ magNum p / magDen p :=
    div_le_div_of_nonneg_left (Nat.cast_nonneg _) (Nat.cast_pos.2 hden)
      (Nat.cast_le.2 (Nat.le_mul_of_pos_right _ hres'))
  rw [← Bool.not_eq_false, b64Finite_rne_eq_false_iff _ (Nat.mul_pos hden hres'), not_le]
  exact hle.trans_lt (magnitude_lt_of_finite hp)

/-- Settles O37: `TOVOLT` at IDLE is `converted`; the quotient is finite by `b64Finite_quotient`. -/
theorem tovoltMultipliesThenDivides : Obligations.TovoltMultipliesThenDivides := by
  rintro r code s hopc rfl hs fs res p
  refine ⟨congrArg _ (decodeRequest_tovolt hopc), fun hres hfs hp => ⟨b64Finite_quotient hp hres, ?_⟩, fun h => ?_⟩
  · rw [exec_tovolt_at_idle _ hs]
    exact congrArg _ (if_pos ⟨hres, hfs, hp⟩)
  · rw [exec_tovolt_at_idle _ hs]
    refine congrArg _ (if_neg ?_)
    rintro ⟨hres, hfs, hp⟩
    obtain h | h | h := h
    · exact hres h
    · exact absurd hfs (ne_true_of_eq_false h)
    · exact absurd hp (ne_true_of_eq_false h)

/-! ### The digits of DSPLIT -/

/-- Rounded, the fraction reaches the next whole number at most. -/
theorem fractionDigits_le (x : Word64) (digits : Nat) : fractionDigits x digits ≤ 10 ^ digits := by
  have hmod : magNum x % magDen x < magDen x := Nat.mod_lt _ (magDen_pos x)
  have hlt := Nat.mul_le_mul_right (10 ^ digits) hmod.le
  have hpos := magDen_pos x
  unfold fractionDigits roundHalfAway
  have hscale : (10 ^ digits + 1) * (2 * magDen x) = 2 * (magDen x * 10 ^ digits) + 2 * magDen x := by ring
  refine Nat.lt_succ_iff.1 ((Nat.div_lt_iff_lt_mul (by positivity)).2 ?_)
  rw [hscale]
  omega

/-- With the carry the fraction fits its digits. -/
theorem displayFraction_lt (x : Word64) (digits : Nat) : displayFraction x digits < 10 ^ digits := by
  have hle := fractionDigits_le x digits
  unfold displayFraction
  split_ifs with h
  · positivity
  · omega

/-- A `DSPLIT` that answers ok answers the split of a finite pattern. -/
theorem exec_dsplit_ok {x : Word64} {d : BitVec 4} (h : exec (.dsplit x d) s = .next t) (hok : t.respStatus = .ok) :
    d.toNat ≤ 9 ∧ ∃ whole : Word32,
      t.respData = whole ++ BitVec.ofNat 32 (displayFraction x d.toNat) ∧
      t.respAux = if b64Value x < 0 then 1#8 else 0#8 := by
  have hs := ((issue_next_iff _ _ _).1 h).1
  by_cases hd : 9 < d.toNat
  · rw [exec_dsplit_of_tooManyDigits x hs hd] at h
    cases h
    cases hok
  refine ⟨Nat.not_lt.1 hd, ?_⟩
  rw [exec_dsplit_at_idle x hs (Nat.not_lt.1 hd)] at h
  cases hx : b64Finite x with
  | false =>
    rw [displaySplit_of_not_finite hx, finishInRange_none hs] at h
    cases h
    cases hok
  | true =>
    rw [displaySplit_of_finite hx] at h
    split at h
    · rw [finishInRange_none hs] at h
      cases h
      cases hok
    · rw [finishInRange_some] at h
      cases h
      exact ⟨_, rfl, rfl⟩

/-- Settles O41: the low word of the answer is `displayFraction`, which the carry keeps below the power of ten. -/
theorem dsplitFractionFitsItsDigits : Obligations.DsplitFractionFitsItsDigits := by
  intro x d s t h hok
  obtain ⟨hd, whole, hdata, haux⟩ := exec_dsplit_ok h hok
  have hlt := displayFraction_lt x d.toNat
  have hword : 10 ^ d.toNat ≤ 10 ^ 9 := Nat.pow_le_pow_right (by decide) hd
  rw [hdata, haux, BitVec.extractLsb'_append_eq_right, BitVec.toNat_ofNat, Nat.mod_eq_of_lt (by omega)]
  exact ⟨hlt, by split <;> simp⟩

/-! ### The path of a sample -/

/-- Three bytes put together are their number. -/
theorem threeBytes_toNat (b1 b2 b3 : Byte) : (b1 ++ b2 ++ b3).toNat = bytesValue [b1, b2, b3] := by
  rw [BitVec.toNat_append, BitVec.toNat_append, ← Nat.shiftLeft_add_eq_or_of_lt b2.isLt,
    ← Nat.shiftLeft_add_eq_or_of_lt b3.isLt]
  simp [bytesValue, Nat.shiftLeft_eq]

/-- The value of a four-byte read is its last three bytes put together. -/
theorem readValue_four (b : Buffer) : readValue b 4#3 = b.s2 ++ b.s3 ++ b.s4 := by
  apply BitVec.eq_of_toNat_eq
  have hvalue : readValue b 4#3 = BitVec.ofNat 24 (bytesValue [b.s2, b.s3, b.s4]) :=
    foldl_bytes_eq_ofNat [b.s2, b.s3, b.s4] 0
  have hlt : bytesValue [b.s2, b.s3, b.s4] < 2 ^ 24 := (bytesValue_lt _).trans_eq (by norm_num)
  rw [hvalue, BitVec.toNat_ofNat, threeBytes_toNat, Nat.mod_eq_of_lt hlt]

/-- `DEC24` of a response that holds a 24-bit value extends its sign. -/
theorem exec_decodeSample {v : BitVec 24} (hs : s.ph = .idle) (hdata : s.respData = v.setWidth 64) :
    exec (CommandStep.decodeSample.instr s) s = .next (responded .ok (v.signExtend 64) 0#8 s) := by
  have hexec := exec_dec24_at_idle (s := s) (s.respData.extractLsb' 16 8) (s.respData.extractLsb' 8 8)
    (s.respData.extractLsb' 0 8) hs
  rw [extractLsb'_threeBytes] at hexec
  rw [show CommandStep.decodeSample.instr s = decodeSampleOf s.respData from rfl, decodeSampleOf, hexec, hdata,
    extractLsb'_setWidth_low (by decide)]

/-- The low word of a sign extension is the shorter sign extension. -/
theorem extractLsb'_signExtend (v : BitVec 24) : (v.signExtend 64).extractLsb' 0 32 = v.signExtend 32 := by
  apply BitVec.eq_of_getLsbD_eq
  intro i hi
  simp only [BitVec.getLsbD_extractLsb', BitVec.getLsbD_signExtend, hi, Nat.zero_add, decide_true, Bool.true_and]
  simp [show i < 64 by omega]

/-- Settles O51: the released value is the three bytes (`readValue_four`), whose sign `DEC24` extends; the low word of
that is the code which `TOVOLT` converts. -/
theorem samplesChain : Obligations.SamplesChain := by
  intro s t ha hs hdone hbusy hk hlen h n
  obtain rfl := Host.Outcome.next.inj ((step_seq s ha).symm.trans h)
  have hrelease : s.seqMove = responded .ok ((s.rx.s2 ++ s.rx.s3 ++ s.rx.s4).setWidth 64) (s.tLen.setWidth 8 - 1#8)
      (deselected { s with done := false }) := by
    rw [seqMove_final hs hdone hbusy, release_of_read hk, hlen, readValue_four]
  rw [hrelease]
  set v := s.rx.s2 ++ s.rx.s3 ++ s.rx.s4
  refine ⟨_, v.signExtend 32, rfl, ?_, exec_decodeSample (v := v) rfl rfl, rfl, ?_, ?_, ?_, exec_tovolt_at_idle _ rfl,
    rfl, rfl⟩
  · exact (BitVec.toNat_setWidth_of_le (by decide)).trans (threeBytes_toNat ..)
  · rw [responded_respData, BitVec.toInt_signExtend_of_le (by decide), BitVec.toInt_signExtend_of_le (by decide)]
  · have hnumber : (n : Int) = s.rx.s2.toNat * 65536 + s.rx.s3.toNat * 256 + s.rx.s4.toNat := by
      simp only [n, bytesValue, List.foldl_cons, List.foldl_nil]
      push_cast
      ring
    rw [BitVec.toInt_signExtend_of_le (by decide), threeBytes_toInt, hnumber]
  · exact congrArg Instr.tovolt (extractLsb'_signExtend v)

end Sys2Proof.Machine
end

section
/-! SUPPORT. A whole transaction under every schedule (41_sequencer.md sections 4 and 5): how far it can have come, from the
request at the port to its answer or its timeout, and that every step of a schedule without a reset keeps this. -/

namespace Sys2Proof.Machine

variable {s a t u v : State} {d : Draw} {ds : List Draw}

/-! ### What was sent -/

/-- The submission of the command byte (R131). -/
def commandEvent (a : State) : Event := .sub .wr [a.tx.s0] .accepted

/-- The submission of phase 2 (R136). -/
def payloadEvent (k : SubmitKind) (a : State) : Event := .sub k (phase2Bytes a.tx a.tLen) .accepted

/-- What a transaction accepted as `a` has submitted by the time it is at a phase. -/
def sentBy (a : State) : Phase → List Event
  | .idle | .start => []
  | .wtx1 | .p2 => [commandEvent a]
  | .wtx2 => [commandEvent a, payloadEvent .wr a]
  | .final =>
    match a.tKind with
    | .read => [commandEvent a, payloadEvent .wrrd a]
    | .write => [commandEvent a, payloadEvent .wr a]
    | .fast => [commandEvent a]

theorem sentBy_final_read (h : a.tKind = .read) : sentBy a .final = [commandEvent a, payloadEvent .wrrd a] := by
  simp [sentBy, h]

theorem sentBy_final_write (h : a.tKind = .write) : sentBy a .final = [commandEvent a, payloadEvent .wr a] := by
  simp [sentBy, h]

theorem sentBy_final_fast (h : a.tKind = .fast) : sentBy a .final = [commandEvent a] := by
  simp [sentBy, h]

/-! ### How far a transaction has come -/

/-- The transaction accepted as `a` is in flight. -/
structure InTransaction (a t : State) : Prop where
  cs : t.cs = true
  tKind : t.tKind = a.tKind
  tLen : t.tLen = a.tLen
  tx : t.tx = a.tx
  requests : t.requests = a.requests
  cfgFullScale : t.cfgFullScale = a.cfgFullScale
  cfgResolution : t.cfgResolution = a.cfgResolution
  cfgPollLimit : t.cfgPollLimit = a.cfgPollLimit
  tx_busy : t.tpTxBusy = true → t.tpBusy = true

/-- In flight, and nothing is captured yet nor will be by what TP holds. -/
structure Quiet (a t : State) : Prop extends InTransaction a t where
  flight : t.ph ≠ .idle
  not_reading : t.ph = .final → a.tKind ≠ .read
  wtx2_write : t.ph = .wtx2 → a.tKind = .write
  fast_one_phase : a.tKind = .fast → t.ph = .start ∨ t.ph = .final
  trace : t.trace = a.trace ++ sentBy a t.ph
  rx : t.rx = a.rx
  silent : t.tpBusy = true → ∀ l, t.tpCur ≠ some ⟨.wrrd, l⟩
  free : t.ph = .start ∨ t.ph = .p2 → t.tpTxBusy = false

/-- A read in flight whose capture TP owes. -/
structure Clocking (a t : State) : Prop extends InTransaction a t where
  ph : t.ph = .final
  trace : t.trace = a.trace ++ sentBy a .final
  rx : t.rx = a.rx
  busy : t.tpBusy = true
  cur : t.tpCur = some ⟨.wrrd, phase2Bytes a.tx a.tLen⟩
  done : t.done = false

/-- A read in flight whose capture is there. -/
structure Captured (a : State) (l : List Byte) (t : State) : Prop extends InTransaction a t where
  ph : t.ph = .final
  trace : t.trace = a.trace ++ (sentBy a .final ++ [.cap l])
  rx : t.rx = storeCapture a.rx l
  busy : t.tpBusy = false

/-- The transaction accepted as `a` has been answered, after the given events and with the given receive buffer. -/
structure AnsweredWith (a : State) (data : Word64) (aux : Byte) (ev : List Event) (rx : Buffer) (t : State) : Prop where
  ok : answeredOk data aux a.requests t
  trace : t.trace = a.trace ++ ev ++ [.csDown, .resp .ok data aux]
  rx : t.rx = rx
  cfgFullScale : t.cfgFullScale = a.cfgFullScale
  cfgResolution : t.cfgResolution = a.cfgResolution
  cfgPollLimit : t.cfgPollLimit = a.cfgPollLimit

/-- A read answered with the captured bytes (R139, R165). -/
def AnsweredRead (a : State) (l : List Byte) (t : State) : Prop :=
  AnsweredWith a ((readValue (storeCapture a.rx l) a.tLen).setWidth 64) (a.tLen.setWidth 8 - 1#8)
    (sentBy a .final ++ [.cap l]) (storeCapture a.rx l) t

/-- A write or a fast command answered with zeros (R140). -/
def AnsweredSent (a t : State) : Prop := AnsweredWith a 0#64 0#8 (sentBy a .final) a.rx t

/-- The transaction ended at the poll limit (R142). -/
def TimedOut (a t : State) : Prop := t.ph = .idle ∧ t.requests = a.requests ∧ t.respStatus = .transportTimeout

/-- The bytes that a read takes of a capture. -/
def readBytes (a : State) (c : Capture) : List Byte := capturedBytes c (phase2Bytes a.tx a.tLen).length

/-- How far the first request of `s`, which is accepted as `a`, has come under the draws. -/
inductive Progress (s a : State) (ds : List Draw) (t : State) : Prop where
  | unissued (d : Draw) (k : Nat) (h : t = { s with draw := d, tick := k })
  | quiet (h : Quiet a t)
  | clocking (hk : a.tKind = .read) (h : Clocking a t)
  | captured (hk : a.tKind = .read) (d : Draw) (hd : d ∈ ds) (h : Captured a (readBytes a d.capture) t)
  | answeredRead (hk : a.tKind = .read) (d : Draw) (hd : d ∈ ds) (h : AnsweredRead a (readBytes a d.capture) t)
  | answeredSent (hk : a.tKind ≠ .read) (h : AnsweredSent a t)
  | timedOut (h : TimedOut a t)
  | later (h : t.requests.length < a.requests.length)

/-- The redraw changes nothing of it. -/
theorem Progress.redraw (h : Progress s a ds t) : Progress s a ds t.redraw := by
  cases h with
  | unissued d k h => exact .unissued _ _ (by rw [h]; rfl)
  | quiet h => exact .quiet { h with }
  | clocking hk h => exact .clocking hk { h with }
  | captured hk d hd h => exact .captured hk d hd { h with }
  | answeredRead hk d hd h => exact .answeredRead hk d hd { h with }
  | answeredSent hk h => exact .answeredSent hk { h with }
  | timedOut h => exact .timedOut h
  | later h => exact .later h

/-- Nor does a draw put in. -/
theorem Progress.drawn (d : Draw) (h : Progress s a ds t) : Progress s a ds (Machine.drawn d t) := by
  cases h with
  | unissued d k h => exact .unissued _ _ (by rw [h]; rfl)
  | quiet h => exact .quiet { h with }
  | clocking hk h => exact .clocking hk { h with }
  | captured hk d hd h => exact .captured hk d hd { h with }
  | answeredRead hk d hd h => exact .answeredRead hk d hd { h with }
  | answeredSent hk h => exact .answeredSent hk { h with }
  | timedOut h => exact .timedOut h
  | later h => exact .later h

/-! ### SEQ's turns -/

/-- A wait at a false condition counts a poll at most, or times out. -/
theorem heldOrPolled_eq (t : State) :
    (∃ c, heldOrPolled t = { t with pollCnt := c }) ∨
      ∃ c, heldOrPolled t = errored .transportTimeout (deselected { t with pollCnt := c }) := by
  unfold heldOrPolled
  split_ifs
  · exact .inl ⟨t.pollCnt, rfl⟩
  · exact .inl ⟨_, rfl⟩
  · exact .inr ⟨_, rfl⟩

theorem timedOut_of_transaction (h : InTransaction a t) (c : Word32) :
    TimedOut a (errored .transportTimeout (deselected { t with pollCnt := c })) :=
  ⟨rfl, h.requests, rfl⟩

/-- SEQ's submission, accepted, leaves the latch and TP busy. -/
theorem InTransaction.afterAnswer (h : InTransaction a t) (k : SubmitKind) (l : List Byte) (p : Phase) :
    InTransaction a (afterAnswer k l p .accepted t) :=
  { h with tx_busy := fun _ => rfl }

/-- The release answers with the trace so far, and with zeros if nothing was read. -/
theorem answeredSent_release (hk : a.tKind ≠ .read) (h : InTransaction a t) (htrace : t.trace = a.trace ++ sentBy a .final)
    (hrx : t.rx = a.rx) (hbusy : t.tpBusy = false) : AnsweredSent a t.release := by
  have htx : t.tpTxBusy = false := by simpa [hbusy] using h.tx_busy
  rw [release_of_not_read (h.tKind ▸ hk)]
  exact
    { h with
      ok := ⟨rfl, rfl, rfl, h.requests, rfl, rfl, rfl, rfl, hbusy, htx⟩
      trace := by simp [responded, deselected, h.cs, htrace]
      rx := hrx }

theorem answeredRead_release (hk : a.tKind = .read) {l : List Byte} (h : Captured a l t) : AnsweredRead a l t.release := by
  have htx : t.tpTxBusy = false := by simpa [h.busy] using h.tx_busy
  rw [release_of_read (h.tKind.trans hk), h.tLen, h.rx]
  exact
    { h with
      ok := ⟨rfl, rfl, rfl, h.requests, rfl, rfl, rfl, rfl, h.busy, htx⟩
      trace := by simp [responded, deselected, h.cs, h.trace]
      rx := rfl }

/-- A wait at a false condition keeps a transaction where it is, or ends it at the poll limit. -/
theorem progress_of_waiting (hflight : InTransaction a t) (hw : waiting t.ph = true) (hover : waitOver t = false)
    (hheld : ∀ c, Progress s a ds { t with pollCnt := c }) : Progress s a ds t.seqMove := by
  rw [seqMove_of_waiting hw hover]
  obtain ⟨c, hc⟩ | ⟨c, hc⟩ := heldOrPolled_eq t <;> rw [hc]
  · exact hheld c
  · exact .timedOut (timedOut_of_transaction hflight c)

/-- START submits the command byte; a fast command then waits for its end. -/
theorem Quiet.submit_command (h : Quiet a t) (hs : t.ph = .start) :
    Quiet a (Machine.afterAnswer .wr [a.tx.s0] (if a.tKind = .fast then .final else .wtx1) .accepted t) := by
  have htrace : t.trace = a.trace := by simpa [hs, sentBy] using h.trace
  by_cases hk : a.tKind = .fast
  · rw [if_pos hk]
    exact
      { h.toInTransaction.afterAnswer _ _ _ with
        flight := by simp [Machine.afterAnswer]
        not_reading := by simp [hk]
        wtx2_write := by simp [Machine.afterAnswer]
        fast_one_phase := fun _ => .inr rfl
        trace := by simp [Machine.afterAnswer, submitted, htrace, sentBy_final_fast hk, commandEvent]
        rx := h.rx
        silent := by simp [Machine.afterAnswer, submitted]
        free := by simp [Machine.afterAnswer] }
  · rw [if_neg hk]
    exact
      { h.toInTransaction.afterAnswer _ _ _ with
        flight := by simp [Machine.afterAnswer]
        not_reading := by simp [Machine.afterAnswer]
        wtx2_write := by simp [Machine.afterAnswer]
        fast_one_phase := fun hfast => absurd hfast hk
        trace := by simp [Machine.afterAnswer, submitted, htrace, sentBy, commandEvent]
        rx := h.rx
        silent := by simp [Machine.afterAnswer, submitted]
        free := by simp [Machine.afterAnswer] }

/-- P2 of a write submits the payload. -/
theorem Quiet.submit_payload (h : Quiet a t) (hs : t.ph = .p2) (hk : a.tKind = .write) :
    Quiet a (Machine.afterAnswer .wr (phase2Bytes a.tx a.tLen) .wtx2 .accepted t) := by
  have htrace : t.trace = a.trace ++ [commandEvent a] := by simpa [hs, sentBy] using h.trace
  exact
    { h.toInTransaction.afterAnswer _ _ _ with
      flight := by simp [Machine.afterAnswer]
      not_reading := by simp [hk]
      wtx2_write := fun _ => hk
      fast_one_phase := by simp [hk]
      trace := by simp [Machine.afterAnswer, submitted, htrace, sentBy, payloadEvent]
      rx := h.rx
      silent := by simp [Machine.afterAnswer, submitted]
      free := by simp [Machine.afterAnswer] }

/-- P2 of a read clocks its bytes out. -/
theorem Quiet.submit_fill (h : Quiet a t) (hs : t.ph = .p2) (hk : a.tKind = .read) :
    Clocking a (Machine.afterAnswer .wrrd (phase2Bytes a.tx a.tLen) .final .accepted t) := by
  have htrace : t.trace = a.trace ++ [commandEvent a] := by simpa [hs, sentBy] using h.trace
  exact
    { h.toInTransaction.afterAnswer _ _ _ with
      ph := rfl
      trace := by simp [Machine.afterAnswer, submitted, htrace, sentBy_final_read hk, payloadEvent]
      rx := h.rx
      busy := rfl
      cur := rfl
      done := rfl }

/-- SEQ's turn in a quiet transaction, its submission accepted. -/
theorem Quiet.seqMove (h : Quiet a t) (hanswer : t.draw.answer = .accepted) : Progress s a ds t.seqMove := by
  have haccepted : t.tpTxBusy = false → t.tpAnswer = .accepted := fun hfree => (tpAnswer_of_idle t hfree).trans hanswer
  by_cases hwait : waiting t.ph = true ∧ waitOver t = false
  · exact progress_of_waiting h.toInTransaction hwait.1 hwait.2 fun c => .quiet { h with }
  cases hs : t.ph <;> simp only [hs, waiting, waitOver, true_and, Bool.not_eq_false, Bool.not_eq_true',
    Bool.and_eq_true] at hwait
  case idle => exact absurd hs h.flight
  case start =>
    rw [seqMove_start hs, haccepted (h.free (.inl hs)), h.tx, h.tKind]
    exact .quiet (h.submit_command hs)
  case wtx1 =>
    rw [seqMove_wtx1 hs hwait]
    exact .quiet
      { h with
        flight := by simp
        not_reading := by simp
        wtx2_write := by simp
        fast_one_phase := fun hk => by simpa [hs] using h.fast_one_phase hk
        trace := by simpa [hs, sentBy] using h.trace
        free := fun _ => hwait }
  case p2 =>
    by_cases hk : a.tKind = .read
    · rw [seqMove_p2_read hs (h.tKind.trans hk), haccepted (h.free (.inr hs)), h.tx, h.tLen]
      exact .clocking hk (h.submit_fill hs hk)
    · have hwrite : a.tKind = .write := by
        cases hkind : a.tKind with
        | read => exact absurd hkind hk
        | write => rfl
        | fast => simpa [hs] using h.fast_one_phase hkind
      rw [seqMove_p2_write hs (h.tKind ▸ hk), haccepted (h.free (.inr hs)), h.tx, h.tLen]
      exact .quiet (h.submit_payload hs hwrite)
  case wtx2 =>
    have hk := h.wtx2_write hs
    rw [seqMove_wtx2 hs hwait]
    exact .quiet
      { h with
        flight := by simp
        not_reading := by simp [hk]
        wtx2_write := by simp
        fast_one_phase := by simp
        trace := by simpa [hs, sentBy, hk] using h.trace
        free := by simp }
  case final =>
    have hk := h.not_reading hs
    rw [seqMove_final hs hwait.1 hwait.2]
    exact .answeredSent hk (answeredSent_release hk h.toInTransaction (by rw [h.trace, hs]) h.rx hwait.2)

theorem Clocking.seqMove (hk : a.tKind = .read) (h : Clocking a t) : Progress s a ds t.seqMove :=
  progress_of_waiting h.toInTransaction (by simp [h.ph, waiting]) (by simp [h.ph, waitOver, h.done]) fun _ =>
    .clocking hk { h with }

theorem Captured.seqMove (hk : a.tKind = .read) (hd : d ∈ ds) (h : Captured a (readBytes a d.capture) t) :
    Progress s a ds t.seqMove := by
  cases hdone : t.done with
  | true =>
    rw [seqMove_final h.ph hdone h.busy]
    exact .answeredRead hk d hd (answeredRead_release hk h)
  | false =>
    exact progress_of_waiting h.toInTransaction (by simp [h.ph, waiting]) (by simp [h.ph, waitOver, hdone]) fun _ =>
      .captured hk d hd { h with }

/-- SEQ's turn, wherever the transaction is. -/
theorem Progress.seqMove (h : Progress s a ds t) (hs : s.ph = .idle) (hanswer : t.draw.answer = .accepted) :
    Progress s a ds t.seqMove := by
  have hstays : t.ph = .idle → Progress s a ds t.seqMove := fun hidle => by rwa [seqMove_idle hidle]
  cases h with
  | unissued d k h => exact hstays (by rw [h]; exact hs)
  | quiet h => exact h.seqMove hanswer
  | clocking hk h => exact h.seqMove hk
  | captured hk d hd h => exact h.seqMove hk hd
  | answeredRead hk d hd h => exact hstays h.ok.1
  | answeredSent hk h => exact hstays h.ok.1
  | timedOut h => exact hstays h.1
  | later h => exact .later (by rwa [seqMove_requests])

/-! ### TP's turns -/

@[simp] theorem tpMove_requests (t : State) : t.tpMove.requests = t.requests := by rw [tpMove_eq]
@[simp] theorem tpMove_respStatus (t : State) : t.tpMove.respStatus = t.respStatus := by rw [tpMove_eq]

theorem tpMove_of_idle (hbusy : t.tpBusy = false) (htx : t.tpTxBusy = false) : t.tpMove = t := by
  simp [State.tpMove, hbusy, htx]

/-- A completion without a capture. -/
theorem tpComplete_of_silent (h : ∀ l, t.tpCur ≠ some ⟨.wrrd, l⟩) :
    t.tpComplete = { t with tpBusy := false, done := t.done || t.notify } := by
  unfold State.tpComplete
  split
  · rename_i l hcur
    exact absurd hcur (h l)
  · rfl

/-- A completion with a capture. -/
theorem tpComplete_of_capturing {l : List Byte} (h : t.tpCur = some ⟨.wrrd, l⟩) :
    t.tpComplete = { t with
      tpBusy := false
      done := t.done || t.notify
      rx := storeCapture t.rx (capturedBytes t.draw.capture l.length)
      trace := t.trace ++ [.cap (capturedBytes t.draw.capture l.length)] } := by
  rw [State.tpComplete, h]
  rfl

/-- TP's turn leaves a quiet transaction quiet. -/
theorem Quiet.tpMove (h : Quiet a t) : Quiet a t.tpMove := by
  obtain ⟨htx, hmove⟩ | ⟨htx, hbusy, hmove⟩ | ⟨-, -, hmove⟩ := tpMove_cases t <;> rw [hmove]
  · exact { h with
      tx_busy := by simp
      free := fun _ => rfl }
  · rw [tpComplete_of_silent (h.silent hbusy)]
    exact { h with
      tx_busy := by simp [htx]
      silent := by simp }
  · exact h

/-- TP's turn in a read clocks on, or captures. -/
theorem Clocking.tpMove (hk : a.tKind = .read) (hd : t.draw ∈ ds) (h : Clocking a t) : Progress s a ds t.tpMove := by
  cases htx : t.tpTxBusy with
  | true =>
    rw [tpMove_of_txBusy htx]
    exact .clocking hk { h with tx_busy := by simp }
  | false =>
    rw [tpMove_of_completing htx h.busy, tpComplete_of_capturing h.cur]
    exact .captured hk t.draw hd
      { h with
        tx_busy := by simp [htx]
        trace := by simp [h.trace, readBytes]
        rx := by rw [h.rx]; rfl
        busy := rfl }

/-- TP's turn, wherever the transaction is. -/
theorem Progress.tpMove (h : Progress s a ds t) (hbusy : s.tpBusy = false) (htx : s.tpTxBusy = false)
    (hd : t.draw ∈ ds) : Progress s a ds t.tpMove := by
  have hstays : t.tpBusy = false → t.tpTxBusy = false → Progress s a ds t.tpMove := fun hb hx => by
    rwa [tpMove_of_idle hb hx]
  cases h with
  | unissued d k h => exact hstays (by rw [h]; exact hbusy) (by rw [h]; exact htx)
  | quiet h => exact .quiet h.tpMove
  | clocking hk h => exact h.tpMove hk hd
  | captured hk d hd h => exact hstays h.busy (by simpa [h.busy] using h.tx_busy)
  | answeredRead hk d hd h =>
    obtain ⟨-, -, -, -, -, -, -, -, hb, hx⟩ := h.ok
    exact hstays hb hx
  | answeredSent hk h =>
    obtain ⟨-, -, -, -, -, -, -, -, hb, hx⟩ := h.ok
    exact hstays hb hx
  | timedOut h =>
    obtain ⟨hidle, hreq, hstatus⟩ := h
    exact .timedOut ⟨by simpa using hidle, by simpa using hreq, by simpa using hstatus⟩
  | later h => exact .later (by rwa [tpMove_requests])

/-! ### HOST's turns -/

/-- The first request of `s` is due, with the transport idle, and is accepted as a transaction. -/
structure Ready (s : State) (r : Request) (rest : List Request) (k : TransferKind) (n : BitVec 3) (tx : Buffer) :
    Prop where
  ph : s.ph = .idle
  cs : s.cs = false
  tpBusy : s.tpBusy = false
  tpTxBusy : s.tpTxBusy = false
  requests : s.requests = r :: rest
  accepts : ∀ u : State, u.ph = .idle → u.tx = s.tx → exec (decodeRequest r) u = .next (accepted k n tx u)

variable {r : Request} {rest : List Request} {k : TransferKind} {n : BitVec 3} {tx : Buffer}

/-- The transaction that the first request starts. -/
abbrev started (s : State) (rest : List Request) (k : TransferKind) (n : BitVec 3) (tx : Buffer) : State :=
  accepted k n tx { s with requests := rest }

/-- An accepted request is at START, and nothing was sent. -/
theorem quiet_accepted (h : Ready s r rest k n tx) (d : Draw) (j : Nat) :
    Quiet (started s rest k n tx) (accepted k n tx { s with requests := rest, draw := d, tick := j }) where
  cs := rfl
  tKind := rfl
  tLen := rfl
  tx := rfl
  requests := rfl
  cfgFullScale := rfl
  cfgResolution := rfl
  cfgPollLimit := rfl
  tx_busy := by simp [accepted, h.tpTxBusy]
  flight := by simp [accepted]
  not_reading := by simp [accepted]
  wtx2_write := by simp [accepted]
  fast_one_phase := fun _ => .inl rfl
  trace := (List.append_nil _).symm
  rx := rfl
  silent := by simp [accepted, h.tpBusy]
  free := fun _ => h.tpTxBusy

/-- A request leaves the port as the issue step has left it. -/
theorem requestEffect_requests (h : RequestEffect t u) : u.requests = t.requests := by
  cases h with
  | responds s' e d a hcfg _ => obtain rfl | ⟨x, y, z, rfl⟩ := hcfg <;> rfl
  | accepts k n tx _ _ _ => rfl

/-- HOST's issue starts the transaction, or is that of a later request. -/
theorem Progress.issue (hready : Ready s r rest k n tx) (h : Progress s (started s rest k n tx) ds t)
    {r' : Request} {rest' : List Request} (hidle : t.ph = .idle) (hreq : t.requests = r' :: rest')
    (hx : exec (decodeRequest r') { t with requests := rest' } = .next u)
    (he : RequestEffect { t with requests := rest' } u) : Progress s (started s rest k n tx) ds u := by
  have hrest := requestEffect_requests he
  have hlater : t.requests.length ≤ rest.length → Progress s (started s rest k n tx) ds u := fun hle => by
    refine .later ?_
    rw [hreq, List.length_cons] at hle
    rw [hrest]
    exact hle
  cases h with
  | unissued d j h =>
    subst h
    obtain ⟨rfl, rfl⟩ : r = r' ∧ rest = rest' := by simpa [hready.requests] using hreq
    have haccepts := hready.accepts { s with requests := rest, draw := d, tick := j } hready.ph rfl
    obtain rfl := Host.Outcome.next.inj (haccepts.symm.trans hx)
    exact .quiet (quiet_accepted hready d j)
  | quiet h => exact absurd hidle h.flight
  | clocking hk h => simp [h.ph] at hidle
  | captured hk d hd h => simp [h.ph] at hidle
  | answeredRead hk d hd h =>
    obtain ⟨-, -, -, hport, -⟩ := h.ok
    exact hlater (by rw [hport]; rfl)
  | answeredSent hk h =>
    obtain ⟨-, -, -, hport, -⟩ := h.ok
    exact hlater (by rw [hport]; rfl)
  | timedOut h => exact hlater (by rw [h.2.1]; rfl)
  | later h => exact hlater h.le

/-! ### The run -/

/-- Every step of a schedule without a reset, its submissions accepted, keeps to the course of the transaction. -/
theorem Progress.step (hready : Ready s r rest k n tx) (hds : allAccepted ds) (hd : d ∈ ds)
    (h : Progress s (started s rest k n tx) ds t) (hstep : stepWith d t = .next u) :
    Progress s (started s rest k n tx) ds u := by
  obtain ⟨hrst, hanswer⟩ := hds d hd
  obtain ⟨v, rfl, hv⟩ := stepWith_effect t d hstep
  have hdrawn : Progress s (started s rest k n tx) ds (Machine.drawn d t) := h.drawn d
  refine Progress.redraw ?_
  cases hv with
  | waits _ => exact hdrawn
  | issues r' rest' u _ hidle hreq hx he => exact hdrawn.issue hready hidle hreq hx he
  | sequences _ => exact hdrawn.seqMove hready.ph hanswer
  | transports _ => exact hdrawn.tpMove hready.tpBusy hready.tpTxBusy hd
  | resets ha => exact absurd ha hrst

/-- Where the block has finished the request and no wait timed out, it was answered. -/
theorem answered_of_run (hready : Ready s r rest k n tx) (hds : allAccepted ds) (hrun : runWith ds s = some t)
    (hrest : t.requests = rest) (hidle : t.ph = .idle) (hstatus : t.respStatus ≠ .transportTimeout) :
    (k ≠ .read ∧ AnsweredSent (started s rest k n tx) t) ∨
      (k = .read ∧ ∃ d ∈ ds, AnsweredRead (started s rest k n tx) (readBytes (started s rest k n tx) d.capture) t) := by
  have hprogress : Progress s (started s rest k n tx) ds t :=
    runWith_keeps s ds (fun d hd u v hu hstep => hu.step hready hds hd hstep) (.unissued s.draw s.tick rfl) hrun
  cases hprogress with
  | unissued d j h =>
    rw [h] at hrest
    simp [hready.requests] at hrest
  | quiet h => exact absurd hidle h.flight
  | clocking hk h => simp [h.ph] at hidle
  | captured hk d hd h => simp [h.ph] at hidle
  | answeredRead hk d hd h => exact .inr ⟨hk, d, hd, h⟩
  | answeredSent hk h => exact .inl ⟨hk, h⟩
  | timedOut h => exact absurd h.2.2 hstatus
  | later h =>
    rw [hrest] at h
    exact absurd h (lt_irrefl _)

end Sys2Proof.Machine
end

section
/-! SUPPORT. The named schedules of the three transaction requests end them (41_sequencer.md section 5): where a
transaction stands is a phase and three flags of the transport, and a turn that does not wait moves it on. -/

namespace Sys2Proof.Machine

variable {s t u : State} {d : Draw} {ds : List Draw} {k : TransferKind} {rest : List Request}

/-- A phase, and what the waits look at. -/
structure Place where
  ph : Phase
  tpBusy : Bool
  tpTxBusy : Bool
  done : Bool

/-- Where SEQ's turn takes a transaction of the given kind, its submissions accepted; none where it waits. -/
def Place.afterSeq (k : TransferKind) : Place → Option Place
  | ⟨.start, _, false, _⟩ => some ⟨if k = .fast then .final else .wtx1, true, true, false⟩
  | ⟨.wtx1, busy, false, done⟩ => some ⟨.p2, busy, false, done⟩
  | ⟨.p2, _, false, _⟩ => some ⟨if k = .read then .final else .wtx2, true, true, false⟩
  | ⟨.wtx2, busy, false, done⟩ => some ⟨.final, busy, false, done⟩
  | ⟨.final, false, false, true⟩ => some ⟨.idle, false, false, false⟩
  | _ => none

/-- Where TP's turn takes it; none where TP is idle. -/
def Place.afterTp : Place → Option Place
  | ⟨p, busy, true, done⟩ => some ⟨p, busy, false, done⟩
  | ⟨p, true, false, _⟩ => some ⟨p, false, false, true⟩
  | ⟨_, false, false, _⟩ => none

/-- Where a turn of either takes it. -/
def Place.after (k : TransferKind) (p : Place) : Agent → Option Place
  | .seq => p.afterSeq k
  | .tp => p.afterTp
  | .host | .rst => none

/-- The transaction of the given kind stands at a place, the notification connected; at IDLE it was answered. -/
structure At (k : TransferKind) (rest : List Request) (p : Place) (t : State) : Prop where
  ph : t.ph = p.ph
  tpBusy : t.tpBusy = p.tpBusy
  tpTxBusy : t.tpTxBusy = p.tpTxBusy
  done : t.done = p.done
  tKind : t.tKind = k
  requests : t.requests = rest
  notify : t.notify = true
  answered : t.ph = .idle → t.respStatus = .ok

/-- An accepted submission occupies the transport. -/
theorem At.submit {p : Place} (h : At k rest p t) (kind : SubmitKind) (l : List Byte) {next : Phase} (hnext : next ≠ .idle) :
    At k rest ⟨next, true, true, false⟩ (afterAnswer kind l next .accepted t) :=
  { h with
    ph := rfl
    tpBusy := rfl
    tpTxBusy := rfl
    done := rfl
    answered := fun hidle => absurd hidle hnext }

/-- A wait that is over leads to the next phase. -/
theorem At.advance {p : Place} (h : At k rest p t) {next : Phase} (hnext : next ≠ .idle) (c : Word32) :
    At k rest { p with ph := next } { t with pollCnt := c, ph := next } :=
  { h with
    ph := rfl
    answered := fun hidle => absurd hidle hnext }

/-- The release answers. -/
theorem At.release {p : Place} (h : At k rest p t) : At k rest { p with ph := .idle, done := false } t.release := by
  by_cases hk : t.tKind = .read
  · rw [release_of_read hk]
    exact { h with ph := rfl, done := rfl, answered := fun _ => rfl }
  · rw [release_of_not_read hk]
    exact { h with ph := rfl, done := rfl, answered := fun _ => rfl }

/-- SEQ's turn goes where `Place.afterSeq` says. -/
theorem At.seqMove {p q : Place} (h : At k rest p t) (hanswer : t.draw.answer = .accepted)
    (hafter : p.afterSeq k = some q) : At k rest q t.seqMove := by
  unfold Place.afterSeq at hafter
  split at hafter <;> cases hafter
  · rw [seqMove_start h.ph, (tpAnswer_of_idle t h.tpTxBusy).trans hanswer, h.tKind]
    exact h.submit _ _ (by split <;> simp)
  · rw [seqMove_wtx1 h.ph h.tpTxBusy]
    exact h.advance (by simp) t.pollCnt
  · by_cases hk : k = .read
    · rw [if_pos hk, seqMove_p2_read h.ph (h.tKind.trans hk), (tpAnswer_of_idle t h.tpTxBusy).trans hanswer]
      exact h.submit _ _ (by simp)
    · rw [if_neg hk, seqMove_p2_write h.ph (h.tKind ▸ hk), (tpAnswer_of_idle t h.tpTxBusy).trans hanswer]
      exact h.submit _ _ (by simp)
  · rw [seqMove_wtx2 h.ph h.tpTxBusy]
    exact h.advance (by simp) 0#32
  · rw [seqMove_final h.ph h.done h.tpBusy]
    exact h.release

/-- TP's turn goes where `Place.afterTp` says. -/
theorem At.tpMove {p q : Place} (h : At k rest p t) (hafter : p.afterTp = some q) : At k rest q t.tpMove := by
  unfold Place.afterTp at hafter
  split at hafter <;> cases hafter
  · rw [tpMove_of_txBusy h.tpTxBusy]
    exact { h with tpTxBusy := rfl }
  · rw [tpMove_of_completing h.tpTxBusy h.tpBusy, tpComplete_eq]
    exact
      { h with
        tpBusy := rfl
        done := by simp [h.notify] }

/-- A turn goes where `Place.after` says. -/
theorem At.turn {p q : Place} (h : At k rest p t) (hanswer : d.answer = .accepted) (hafter : p.after k d.agent = some q)
    (hstep : stepWith d t = .next u) : At k rest q u := by
  have hdrawn : At k rest p (drawn d t) := { h with }
  cases ha : d.agent <;> rw [ha] at hafter
  case seq =>
    obtain rfl := eq_seqMove_of_stepWith ha hstep
    exact { hdrawn.seqMove hanswer hafter with }
  case tp =>
    obtain rfl := eq_tpMove_of_stepWith ha hstep
    exact { hdrawn.tpMove hafter with }
  all_goals cases hafter

/-- A schedule goes where its turns lead. -/
theorem At.run {p q : Place} (h : At k rest p s) (hds : allAccepted ds)
    (hafter : (ds.map (·.agent)).foldlM (Place.after k) p = some q) (hrun : runWith ds s = some t) : At k rest q t := by
  induction ds generalizing p s with
  | nil =>
    cases hrun
    cases hafter
    exact h
  | cons d ds ih =>
    obtain ⟨u, hstep, hrun⟩ := (runWith_cons_iff s d ds t).1 hrun
    obtain ⟨p', hturn, hafter⟩ := Option.bind_eq_some_iff.1 hafter
    obtain ⟨-, hanswer⟩ := hds d List.mem_cons_self
    exact ih (h.turn hanswer hturn hstep) (fun d hd => hds d (List.mem_cons_of_mem _ hd)) hafter hrun

/-! ### From the request on -/

variable {r : Request} {n : BitVec 3} {tx : Buffer}

/-- HOST's turn starts the transaction. -/
theorem Ready.host_turn (h : Ready s r rest k n tx) (hn : s.notify = true) (ha : d.agent = .host)
    (hstep : stepWith d s = .next u) : At k rest ⟨.start, false, false, s.done⟩ u := by
  have haccepts := h.accepts { s with requests := rest, draw := d } h.ph rfl
  have hnext := (step_host (drawn d s) ha h.ph h.requests).trans (congrArg thenRedraw haccepts)
  obtain rfl := Host.Outcome.next.inj (hnext.symm.trans hstep)
  exact
    { ph := rfl
      tpBusy := h.tpBusy
      tpTxBusy := h.tpTxBusy
      done := rfl
      tKind := rfl
      requests := rfl
      notify := hn
      answered := fun hidle => by cases hidle }

/-- A schedule that HOST begins and whose further turns lead to IDLE finishes the request with status 0x0. -/
theorem Ready.schedule_finishes (h : Ready s r rest k n tx) (hn : s.notify = true) (hds : allAccepted ds) (agents : List Agent)
    (hagents : ds.map (·.agent) = .host :: agents) {q : Place}
    (hafter : ∀ b, agents.foldlM (Place.after k) ⟨.start, false, false, b⟩ = some q) (hq : q.ph = .idle) :
    ∃ t, runWith ds s = some t ∧ t.requests = rest ∧ t.ph = .idle ∧ t.respStatus ≠ .transportTimeout := by
  obtain ⟨t, hrun⟩ := runWith_some ds s
  obtain ⟨d, ds, rfl, ha, rfl⟩ := List.map_eq_cons_iff.1 hagents
  obtain ⟨u, hstep, hrest⟩ := (runWith_cons_iff s d ds t).1 hrun
  have hend := (h.host_turn hn ha hstep).run (fun d hd => hds d (List.mem_cons_of_mem _ hd)) (hafter _) hrest
  have hidle := hend.ph.trans hq
  refine ⟨t, hrun, hend.requests, hidle, ?_⟩
  rw [hend.answered hidle]
  decide

end Sys2Proof.Machine
end

section
/-! SUPPORT. The three transaction requests, whole (41_sequencer.md section 5): what they latch, and their trace and answer
in the words of the rules. -/

namespace Sys2Proof.Machine

variable {s t : State} {r : Request} {rest : List Request} {reg len : BitVec 4} {value : Word32} {cmd : FastCommand}

/-! ### The latched bytes -/

/-- Phase 2 sends what was latched behind the command byte. -/
theorem phase2Bytes_writeSlots (b : Buffer) (f : Byte) {l : List Byte} {n : BitVec 3} (hn : n.toNat = l.length)
    (hmax : l.length ≤ 4) : phase2Bytes (writeSlots b (f :: l)) n = l := by
  rw [phase2Bytes, hn]
  match l, hmax with
  | [], _ | [_], _ | [_, _], _ | [_, _, _], _ | [_, _, _, _], _ => rfl

theorem latchedLength_toNat (hmax : len.toNat ≤ 4) : (len.setWidth 3).toNat = len.toNat := by
  rw [BitVec.toNat_setWidth, Nat.mod_eq_of_lt (by omega)]

theorem latchedLength_setWidth (hmax : len.toNat ≤ 4) : (len.setWidth 3).setWidth 8 = len.setWidth 8 := by
  apply BitVec.eq_of_toNat_eq
  rw [BitVec.toNat_setWidth, latchedLength_toNat hmax, BitVec.toNat_setWidth]

theorem payloadBytes_length (n : Nat) (v : Word32) : (payloadBytes n v).length = n := by simp [payloadBytes]

theorem payloadBytes_succ (n : Nat) (v : Word32) :
    payloadBytes (n + 1) v = v.extractLsb' (8 * n) 8 :: payloadBytes n v := by
  simp [payloadBytes, List.range_succ_eq_map, Nat.sub_sub]

/-- The first of the bytes weighs the most (20_memory.md section 2). -/
theorem bytesValue_cons (b : Byte) (l : List Byte) : bytesValue (b :: l) = b.toNat * 256 ^ l.length + bytesValue l := by
  induction l using List.reverseRecOn with
  | nil => simp [bytesValue]
  | append_singleton l c ih =>
    simp only [bytesValue, List.foldl_cons, List.foldl_append, List.foldl_nil, List.length_append] at ih ⊢
    rw [ih]
    simp [pow_succ]
    ring

/-- The payload is the low bytes of the operand. -/
theorem bytesValue_payloadBytes (n : Nat) (v : Word32) : bytesValue (payloadBytes n v) = v.toNat % 2 ^ (8 * n) := by
  induction n with
  | zero => simp [payloadBytes, bytesValue, Nat.mod_one]
  | succ n ih =>
    rw [payloadBytes_succ, bytesValue_cons, payloadBytes_length, ih, BitVec.extractLsb'_toNat, Nat.shiftRight_eq_div_pow,
      Nat.mul_succ, pow_add, Nat.mod_mul, pow_mul 2 8 n]
    ring

/-! ### What the port holds -/

theorem writePayload_of_decodeRequest (h : decodeRequest r = .wrreg reg len value) : value = writePayload len r.data := by
  unfold decodeRequest at h
  split at h <;> cases h
  rfl

theorem fastOfSel_of_decodeRequest (h : decodeRequest r = .fast cmd) : cmd = fastOfSel (ctlSel r.ctl) := by
  unfold decodeRequest at h
  split at h <;> cases h
  rfl

theorem fastByte_fastOfSel (sel : BitVec 2) :
    [0x68#8, 0x6C#8, 0x70#8, 0x78#8][sel.toNat]? = some (fastByte (fastOfSel sel)) := by
  revert sel
  decide

/-! ### The requests are accepted -/

theorem ready_rdreg (hs : s.ph = .idle) (hcs : s.cs = false) (hbusy : s.tpBusy = false) (htx : s.tpTxBusy = false)
    (hr : s.requests = r :: rest) (hdecode : decodeRequest r = .rdreg reg len) (h : transferError reg len = none) :
    Ready s r rest .read (len.setWidth 3)
      (writeSlots s.tx (frame Config.deviceAddress reg opRead :: List.replicate len.toNat Config.fillByte)) :=
  ⟨hs, hcs, hbusy, htx, hr, fun u hu hutx => by rw [hdecode, exec_rdreg_accepted hu h, hutx]⟩

theorem ready_wrreg (hs : s.ph = .idle) (hcs : s.cs = false) (hbusy : s.tpBusy = false) (htx : s.tpTxBusy = false)
    (hr : s.requests = r :: rest) (hdecode : decodeRequest r = .wrreg reg len value) (h : transferError reg len = none) :
    Ready s r rest .write (len.setWidth 3)
      (writeSlots s.tx (frame Config.deviceAddress reg opWrite :: payloadBytes len.toNat value)) :=
  ⟨hs, hcs, hbusy, htx, hr, fun u hu hutx => by rw [hdecode, exec_wrreg_accepted value hu h, hutx]⟩

theorem ready_fast (hs : s.ph = .idle) (hcs : s.cs = false) (hbusy : s.tpBusy = false) (htx : s.tpTxBusy = false)
    (hr : s.requests = r :: rest) (hdecode : decodeRequest r = .fast cmd) :
    Ready s r rest .fast 1#3 { s.tx with s0 := fastByte cmd } :=
  ⟨hs, hcs, hbusy, htx, hr, fun u hu hutx => by rw [hdecode, exec_fast_accepted cmd hu, hutx]⟩

/-! ### The answers in the words of the rules -/

variable {n : BitVec 3} {tx : Buffer} {k : TransferKind} {c : Capture}

/-- Chip-select is asserted at IDLE, where it was released. -/
theorem started_trace (hcs : s.cs = false) : (started s rest k n tx).trace = s.trace ++ [.csUp] := by
  simp [started, accepted, hcs]

/-- The value bytes of a read are the captured bytes but the first. -/
theorem valueBytes_storeCapture (b : Buffer) (c : Capture) {n : Nat} (hmin : 1 ≤ n) (hmax : n ≤ 4) :
    [(storeCapture b (capturedBytes c n)).s2, (storeCapture b (capturedBytes c n)).s3,
      (storeCapture b (capturedBytes c n)).s4].take (n - 1) = (capturedBytes c n).tail := by
  interval_cases n <;> rfl

theorem readTransaction_of_answered (hcs : s.cs = false) (hmin : 1 ≤ len.toNat) (hmax : len.toNat ≤ 4)
    {a : State} (ha : a = started s rest .read (len.setWidth 3)
      (writeSlots s.tx (frame Config.deviceAddress reg opRead :: List.replicate len.toNat Config.fillByte)))
    (h : AnsweredRead a (readBytes a c) t) : readTransaction reg len c rest s t := by
  have hlen : a.tLen = len.setWidth 3 := by rw [ha]; rfl
  have hfill : phase2Bytes a.tx a.tLen = List.replicate len.toNat 0x00#8 := by
    rw [ha]
    exact phase2Bytes_writeSlots _ _ (by simp [started, accepted, latchedLength_toNat hmax]) (by simpa using hmax)
  have hbytes : readBytes a c = capturedBytes c len.toNat := by rw [readBytes, hfill, List.length_replicate]
  have hsent : a.trace ++ sentBy a .final = s.trace ++ [.csUp, .sub .wr [0b01#2 ++ reg ++ 0b01#2] .accepted,
      .sub .wrrd (List.replicate len.toNat 0x00#8) .accepted] := by
    rw [sentBy_final_read (by rw [ha]; rfl), commandEvent, payloadEvent, hfill, ha, started_trace hcs,
      show 0b01#2 ++ reg ++ 0b01#2 = frame Config.deviceAddress reg opRead from (frame_eq_append ..).symm]
    simp [started, accepted, writeSlots]
  have hdata : (readValue (storeCapture a.rx (readBytes a c)) a.tLen).setWidth 64 =
      BitVec.ofNat 64 (bytesValue ([c.c1, c.c2, c.c3, c.c4].take len.toNat).tail) := by
    rw [readValue_setWidth, hlen, latchedLength_toNat hmax, hbytes, valueBytes_storeCapture _ _ hmin hmax]
    rfl
  rw [AnsweredRead, hdata, hlen, latchedLength_setWidth hmax] at h
  have hok := h.ok
  have htrace := h.trace
  rw [← List.append_assoc a.trace, hsent, hbytes] at htrace
  refine ⟨?_, ?_⟩
  · rw [ha] at hok
    exact hok
  · simpa [capturedBytes] using htrace

theorem writeTransaction_of_answered (hcs : s.cs = false) (hmax : len.toNat ≤ 4)
    {a : State} (ha : a = started s rest .write (len.setWidth 3)
      (writeSlots s.tx (frame Config.deviceAddress reg opWrite :: payloadBytes len.toNat value)))
    (h : AnsweredSent a t) : writeTransaction reg (payloadBytes len.toNat value) rest s t := by
  have hpayload : phase2Bytes a.tx a.tLen = payloadBytes len.toNat value := by
    rw [ha]
    exact phase2Bytes_writeSlots _ _ (by simp [started, accepted, latchedLength_toNat hmax, payloadBytes_length])
      (by simpa [payloadBytes_length] using hmax)
  have hsent : a.trace ++ sentBy a .final = s.trace ++ [.csUp, .sub .wr [0b01#2 ++ reg ++ 0b10#2] .accepted,
      .sub .wr (payloadBytes len.toNat value) .accepted] := by
    rw [sentBy_final_write (by rw [ha]; rfl), commandEvent, payloadEvent, hpayload, ha, started_trace hcs,
      show 0b01#2 ++ reg ++ 0b10#2 = frame Config.deviceAddress reg opWrite from (frame_eq_append ..).symm]
    simp [started, accepted, writeSlots]
  have hok := h.ok
  have htrace := h.trace
  rw [hsent] at htrace
  refine ⟨?_, by simpa using htrace⟩
  rw [ha] at hok
  exact hok

theorem fastTransaction_of_answered (hcs : s.cs = false)
    (h : AnsweredSent (started s rest .fast 1#3 { s.tx with s0 := fastByte cmd }) t) :
    fastTransaction (fastByte cmd) rest s t := by
  refine ⟨h.ok, h.rx, h.cfgFullScale, h.cfgResolution, h.cfgPollLimit, ?_⟩
  have htrace := h.trace
  rw [started_trace hcs, sentBy_final_fast rfl] at htrace
  simpa [commandEvent, started, accepted] using htrace

/-! ### The obligations -/

/-- Settles O52: `answered_of_run` for every schedule, and `Ready.schedule_finishes` for the named one. -/
theorem rdregReadsARegister : Obligations.RdregReadsARegister := by
  intro s r rest reg len hs hcs hbusy htx hr hdecode hreg hmin hmax
  have hready := ready_rdreg hs hcs hbusy htx hr (Except.ok.inj hdecode) (transferError_eq_none hreg hmin hmax)
  have hevery : ∀ (ds : List Draw) (t : State), allAccepted ds → runWith ds s = some t → t.requests = rest →
      t.ph = .idle → t.respStatus ≠ .transportTimeout → ∃ d ∈ ds, readTransaction reg len d.capture rest s t :=
    fun ds t hds hrun hrest hidle hstatus => by
      obtain ⟨hk, -⟩ | ⟨-, d, hd, h⟩ := answered_of_run hready hds hrun hrest hidle hstatus
      · exact absurd rfl hk
      · exact ⟨d, hd, readTransaction_of_answered hcs hmin hmax rfl h⟩
  refine ⟨hevery, fun hn ds c hds hcapture hagents => ?_⟩
  obtain ⟨t, hrun, hrest, hidle, hstatus⟩ := hready.schedule_finishes hn hds _ hagents (fun _ => rfl) rfl
  obtain ⟨d, hd, h⟩ := hevery ds t hds hrun hrest hidle hstatus
  exact ⟨t, hrun, hcapture d hd ▸ h⟩

/-- Settles O53: the payload is `payloadBytes`; the rest as in O52. -/
theorem wrregWritesARegister : Obligations.WrregWritesARegister := by
  intro s r rest reg len value hs hcs hbusy htx hr hdecode hreg hmin hmax
  have hrequest := Except.ok.inj hdecode
  have hready := ready_wrreg hs hcs hbusy htx hr hrequest (transferError_eq_none hreg hmin hmax)
  have hevery : ∀ (ds : List Draw) (t : State), allAccepted ds → runWith ds s = some t → t.requests = rest →
      t.ph = .idle → t.respStatus ≠ .transportTimeout → writeTransaction reg (payloadBytes len.toNat value) rest s t :=
    fun ds t hds hrun hrest hidle hstatus => by
      obtain ⟨-, h⟩ | ⟨hk, -⟩ := answered_of_run hready hds hrun hrest hidle hstatus
      · exact writeTransaction_of_answered hcs hmax rfl h
      · cases hk
  refine ⟨payloadBytes len.toNat value, payloadBytes_length _ _, ?_, hevery, fun hn ds hds hagents => ?_⟩
  · rw [bytesValue_payloadBytes, writePayload_of_decodeRequest hrequest, writePayload_toNat ⟨hmin, hmax⟩, Nat.mod_mod]
  · obtain ⟨t, hrun, hrest, hidle, hstatus⟩ := hready.schedule_finishes hn hds _ hagents (fun _ => rfl) rfl
    exact ⟨t, hrun, hevery ds t hds hrun hrest hidle hstatus⟩

/-- Settles O54: the byte is that of the selector; the rest as in O52. -/
theorem fastSendsACommand : Obligations.FastSendsACommand := by
  intro s r rest cmd hs hcs hbusy htx hr hdecode
  have hrequest := Except.ok.inj hdecode
  have hready := ready_fast hs hcs hbusy htx hr hrequest
  have hevery : ∀ (ds : List Draw) (t : State), allAccepted ds → runWith ds s = some t → t.requests = rest →
      t.ph = .idle → t.respStatus ≠ .transportTimeout → fastTransaction (fastByte cmd) rest s t :=
    fun ds t hds hrun hrest hidle hstatus => by
      obtain ⟨-, h⟩ | ⟨hk, -⟩ := answered_of_run hready hds hrun hrest hidle hstatus
      · exact fastTransaction_of_answered hcs h
      · cases hk
  refine ⟨fastByte cmd, ?_, hevery, fun hn ds hds hagents => ?_⟩
  · rw [fastOfSel_of_decodeRequest hrequest]
    exact fastByte_fastOfSel (ctlSel r.ctl)
  · obtain ⟨t, hrun, hrest, hidle, hstatus⟩ := hready.schedule_finishes hn hds _ hagents (fun _ => rfl) rfl
    exact ⟨t, hrun, hevery ds t hds hrun hrest hidle hstatus⟩

end Sys2Proof.Machine
end
